-- ==== Sys2Proof/Word.lean ====
section
/-! DEFINITION. The bit-vector types of QAMCORE's bus and buffers (spec/00_scope.md R7, R9). -/

namespace Sys2Proof

/-- One byte, the unit in which memory is listed (20_memory.md R80: byte addresses). -/
abbrev Byte := BitVec 8

/-- A bus data word, a CSR, a buffer word or a command word: `WORD` = 32 bits (R7). -/
abbrev Word := BitVec 32

/-- A byte address on the host bus: `ADDR_BITS` = 20 bits (R7, R80). -/
abbrev BusAddr := BitVec 20

/-- One host bus transaction packed as a 53-bit tuple (30_encoding.md R124):
bit 52 `pwrite`, bits 51..32 `paddr`, bits 31..0 `pwdata`. -/
abbrev BusTuple := BitVec 53

end Sys2Proof
end

