-- ==== Sys2Proof/Config.lean ====
section
/-! DEFINITION. What is fixed for this hardware: the parameters of spec/00_scope.md R7, the address map of
20_memory.md R81, and the free values, constants without a body on which no proof can rest. -/

namespace Sys2Proof.Config

/-- `BIT_CAP` (R7): bits in BIT_MEM, and symbols in SYM_MEM and EST_MEM. -/
def bitCap : Nat := 4096

/-- `SIG_CAP` (R7): samples in SIG_MEM. -/
def sigCap : Nat := 65536

/-- `K10` (R7, 40_kernels.md R149): 1/sqrt(10) in Q0.16. -/
def k10 : Int := 20724

/-- `BSEED0` (R7): the reset value of BRNG, and what a write of 0 to BRNG stores (R37). -/
def bSeed0 : Word := 0x12345678#32

/-- `NSEED0` (R7): the reset value of NRNG, and what a write of 0 to NRNG stores (R38). -/
def nSeed0 : Word := 0x9E3779B9#32

/-- The constant value of the ID register (10_state.md R22). -/
def idValue : Word := 0x51414D01#32

/-- The constant value of the CAPS register (10_state.md R23). -/
def capsValue : Word := 0x10100C0A#32

/-- First byte address of BIT_MEM (R81) and its size in words (R48). -/
def bitBase : Nat := 0x01000
def bitWords : Nat := 128

/-- First byte address of SYM_MEM (R81) and its size in words (R49). -/
def symBase : Nat := 0x10000
def symWords : Nat := 8192

/-- First byte address of EST_MEM (R81) and its size in words (R50). -/
def estBase : Nat := 0x18000
def estWords : Nat := 8192

/-- First byte address of SIG_MEM (R81) and its size in words (R51). -/
def sigBase : Nat := 0x40000
def sigWords : Nat := 65536

/-- `QAM_BASE` (92_eei_decisions.md D50, OPEN): where an integrator places offset 0 of the 20-bit window.
No rule depends on it; every address of the model is an offset from it (R81, R300). -/
opaque qamBase : Nat

/-- FREE VALUE (20_memory.md R95, 70_reset_and_hazards.md R322): the byte a buffer address holds after
power-on number `n`, before any write reaches it. Assumption log 2. -/
opaque powerOnByte : Nat → Nat → Byte

/-- FREE VALUE (70_reset_and_hazards.md R333): what a host read at this address returns while BUSY = 1 for
an item that R333 lists, at step number `n`. Assumption log 3. -/
opaque busyRead : Nat → BusAddr → Word

/-- FREE VALUE (70_reset_and_hazards.md R322): what the buffer word at this byte address holds after a
hardware reset, asserted at step number `n`, has abandoned a command that could write it.
Assumption log 4. -/
opaque lostWord : Nat → Nat → Word

end Sys2Proof.Config
end

