-- ==== Sys2Proof/Machine/State.lean ====
section
/-! DEFINITION. The state of QAMCORE (spec/10_state.md) as plain data, its value after power-on reset, and the
reasons for which a step stops. -/

namespace Sys2Proof.Machine

/-- The control and status registers that hold state (10_state.md R24 to R44, R55). ID and CAPS are constants
(R22, R23): `Config.idValue` and `Config.capsValue`, read through `csrRead`. Reserved offsets hold nothing (R45). -/
structure Csrs where
  /-- CTRL, offset 0x008 (R24): bit 0 DGAIN. -/
  ctrl : Word
  /-- STATUS, offset 0x00C (R25): BUSY, DONE, ERR, SAT, CMD_OVR, WR_BUSY, ERR_MULTI in bits 0 to 6. -/
  status : Word
  /-- IRQ_EN, offset 0x010 (R27): DONE_IE, ERR_IE, SAT_IE in bits 0 to 2. -/
  irqEn : Word
  /-- LAST_CMD, read at offset 0x014 (R28). -/
  lastCmd : Word
  /-- ERR_CODE, offset 0x018 (R29). -/
  errCode : Word
  /-- ERR_CMD, offset 0x01C (R30). -/
  errCmd : Word
  /-- NBITS, offset 0x020 (R31). -/
  nbits : Word
  /-- NSPS, offset 0x024 (R32). -/
  nsps : Word
  /-- AMP, offset 0x028 (R33), Q15.16. -/
  amp : Word
  /-- CAR_FCW, offset 0x02C (R34). -/
  carFcw : Word
  /-- DEV_FCW, offset 0x030 (R35). -/
  devFcw : Word
  /-- SIGMA, offset 0x034 (R36), Q15.16. -/
  sigma : Word
  /-- BRNG, offset 0x038 (R37): the state of the bit-source generator. -/
  brng : Word
  /-- NRNG, offset 0x03C (R38): the state of the noise generator. -/
  nrng : Word
  /-- SYM_COUNT, offset 0x040 (R39). -/
  symCount : Word
  /-- SYM_INFO, offset 0x044 (R40): KIND in bits 1..0, SCHEME in bits 6..4. -/
  symInfo : Word
  /-- SIG_COUNT, offset 0x048 (R41). -/
  sigCount : Word
  /-- SIG_INFO, offset 0x04C (R42): KIND in bits 1..0, SCHEME in bits 6..4, NOISY in bit 8. -/
  sigInfo : Word
  /-- EST_COUNT, offset 0x050 (R43). -/
  estCount : Word
  /-- EST_INFO, offset 0x054 (R44): KIND in bits 1..0, SCHEME in bits 6..4, DGAIN in bit 8. -/
  estInfo : Word
deriving DecidableEq, Repr

/-- Every CSR at its reset value (R55; restated in 70_reset_and_hazards.md R321). -/
def Csrs.reset : Csrs where
  ctrl := 0x00000000#32
  status := 0x00000000#32
  irqEn := 0x00000000#32
  lastCmd := 0x00000000#32
  errCode := 0x00000000#32
  errCmd := 0x00000000#32
  nbits := 0x00000000#32
  nsps := 0x00000008#32
  amp := 0x00010000#32
  carFcw := 0x20000000#32
  devFcw := 0x10000000#32
  sigma := 0x00000000#32
  brng := Config.bSeed0
  nrng := Config.nSeed0
  symCount := 0x00000000#32
  symInfo := 0x00000000#32
  sigCount := 0x00000000#32
  sigInfo := 0x00000000#32
  estCount := 0x00000000#32
  estInfo := 0x00000000#32

/-- The response to a bus transaction, `pslverr` (20_memory.md R83). -/
inductive Resp where
  | ok
  | err
deriving DecidableEq, Repr

/-- The slave's answer to one transaction: a read returns data with its response, a write a response (R83). -/
inductive Reply where
  | readData (resp : Resp) (data : Word)
  | writeAck (resp : Resp)
deriving DecidableEq, Repr

/-- One entry of the machine's input, read one a step: which agent moves next (00_scope.md R14), and what the
world outside does (20_memory.md R83, 70_reset_and_hazards.md R320, 60_exceptions.md R303). -/
inductive Turn where
  /-- HOST issues this packed bus transaction (30_encoding.md R124). -/
  | bus (t : BusTuple)
  /-- ENGINE moves, if it is enabled. -/
  | engine
  /-- `presetn` goes low. -/
  | resetAssert
  /-- `presetn` goes high. -/
  | resetRelease
  /-- Power is removed and comes back (R303: the next power-on is a hardware reset). -/
  | powerCycle
deriving DecidableEq, Repr

/-- The buffers' contents: the bytes written since power-on, as (byte address, byte) pairs with strictly rising
addresses. An address that is not listed has been written by nothing since power-on. -/
abbrev Memory := List Host.Cell

/-- The whole machine. -/
structure State where
  /-- The CSR file. -/
  csr : Csrs
  /-- PEND (R52): the accepted command word, `none` when empty. -/
  pend : Option Word
  /-- BIT_MEM, SYM_MEM, EST_MEM and SIG_MEM (R48 to R51) in the one address space (20_memory.md R80, R81). -/
  mem : Memory
  /-- The level of the reset input: `false` while `presetn` is asserted (R320). -/
  presetn : Bool
  /-- The slave's answer to the last transaction: `pslverr` and `prdata` (R83); `none` when the last one got
  no answer, or none has been issued. -/
  reply : Option Reply
  /-- MODEL'S OWN: the inputs still to come, the next one first. -/
  turns : List Turn
  /-- MODEL'S OWN: the number of steps taken, the index of the free values of a step. -/
  drawIx : Nat
  /-- MODEL'S OWN: the number of power-ons, the index of the free contents of the buffers. -/
  powerOns : Nat
deriving DecidableEq, Repr

/-- Why the machine is stuck. Both reasons are met only in states that no run from reset reaches. -/
inductive Fault where
  /-- Raised by the engine's step when STATUS.BUSY = 1 and PEND is empty: no rule says which command runs.
  Safe: acceptance, completion and reset keep BUSY = 1 and PEND full together. -/
  | engineWithoutCommand
  /-- Raised by NOISE and RUN when a draw is needed and NRNG = 0: the loop `repeat … until w != 0` of
  40_kernels.md R152 does not end on the state 0. Safe: R151 says the state is never 0. -/
  | drawNeverEnds
deriving DecidableEq, Repr

/-- Why the model gives an instruction no meaning. -/
inductive Refusal where
  /-- Raised by `exec` for an instruction the model has not reached. Safe: no claim about it can be proved. -/
  | notModelled (mnemonic : String)
deriving DecidableEq, Repr

/-- The machine right after power-on reset, `presetn` just released (70_reset_and_hazards.md R320 to R324): every CSR at
its reset value, PEND empty, no buffer byte written. -/
def State.reset : State where
  csr := Csrs.reset
  pend := none
  mem := []
  presetn := true
  reply := none
  turns := []
  drawIx := 0
  powerOns := 0

end Sys2Proof.Machine
end

