-- ==== Sys2Proof/Machine/Flags.lean ====
section
/-! DEFINITION. The STATUS flags (spec/10_state.md R25, R26, R47) and the interrupt output as a function of them
(60_exceptions.md R293). -/

namespace Sys2Proof.Machine

/-- The STATUS bits, one mask each (R25). -/
def fBusy : Word := 0x01#32
def fDone : Word := 0x02#32
def fErr : Word := 0x04#32
def fSat : Word := 0x08#32
def fCmdOvr : Word := 0x10#32
def fWrBusy : Word := 0x20#32
def fErrMulti : Word := 0x40#32

/-- The W1C bits of STATUS, 1 to 6 (R26). -/
def w1cMask : Word := 0x7E#32

/-- The STATUS bits whose value a host read does not fix while BUSY = 1: ERR, SAT and ERR_MULTI
(70_reset_and_hazards.md R333). -/
def busyFreeMask : Word := 0x4C#32

/-- Set the bits of `mask` in a status word. -/
def setBits (status mask : Word) : Word := status ||| mask

/-- Clear the bits of `mask` in a status word. -/
def clearBits (status mask : Word) : Word := status &&& ~~~mask

/-- Replace STATUS. -/
def State.setStatus (s : State) (w : Word) : State := { s with csr := { s.csr with status := w } }

/-- Set STATUS bits. -/
def State.raiseFlags (s : State) (mask : Word) : State := s.setStatus (setBits s.csr.status mask)

/-- Clear STATUS bits. -/
def State.clearFlags (s : State) (mask : Word) : State := s.setStatus (clearBits s.csr.status mask)

/-- The flags by name (R25). -/
def State.busy (s : State) : Bool := s.csr.status.getLsbD 0
def State.done (s : State) : Bool := s.csr.status.getLsbD 1
def State.err (s : State) : Bool := s.csr.status.getLsbD 2
def State.sat (s : State) : Bool := s.csr.status.getLsbD 3
def State.cmdOvr (s : State) : Bool := s.csr.status.getLsbD 4
def State.wrBusy (s : State) : Bool := s.csr.status.getLsbD 5
def State.errMulti (s : State) : Bool := s.csr.status.getLsbD 6

/-- The interrupt equation of R293 on a STATUS value and an IRQ_EN value. -/
def irqOf (status irqEn : Word) : Bool :=
  (status.getLsbD 1 && irqEn.getLsbD 0) ||
  (status.getLsbD 2 && irqEn.getLsbD 1) ||
  (status.getLsbD 3 && irqEn.getLsbD 2)

/-- The STATUS value the outside sees at CSR address `a`: exact while BUSY = 0; while BUSY = 1 the bits ERR, SAT
and ERR_MULTI are free (70_reset_and_hazards.md R333; assumption log 3). -/
def State.seenStatus (s : State) (a : BusAddr) : Word :=
  if s.busy then setBits (clearBits s.csr.status busyFreeMask) (Config.busyRead s.drawIx a &&& busyFreeMask)
  else s.csr.status

/-- The interrupt output irq (R293); while BUSY = 1 it is computed from the free STATUS bits (R333). -/
def State.irq (s : State) : Bool := irqOf (s.seenStatus 0x0000C#20) s.csr.irqEn

end Sys2Proof.Machine
end

