-- ==== Sys2Proof/Machine/Kernels.lean ====
section
/-! DEFINITION. The numeric kernels of spec/40_kernels.md: saturation, the cosine table, the NCO, the xorshift
generator, the Box-Muller radius and the Gaussian sample, each as an exact integer function. -/

namespace Sys2Proof.Machine

/-! ## Integer laws (R140, R141) -/

/-- The greatest and the least value of the s32 range (R140). -/
def s32Max : Int := 2147483647
def s32Min : Int := -2147483648

/-- `sat32(v)` (R140), the value it returns. -/
def sat32 (v : Int) : Int :=
  if v > s32Max then s32Max else if v < s32Min then s32Min else v

/-- Whether `sat32(v)` sets STATUS.SAT (R140). -/
def saturates (v : Int) : Bool := decide (v > s32Max) || decide (v < s32Min)

/-- The stored word `u32(sat32(v))` of a result (R140). -/
def storedWord (v : Int) : Word := BitVec.ofInt 32 (sat32 v)

/-- `x >> 16`: floor of division by 2^16 (00_scope.md R9). -/
def shr16 (x : Int) : Int := x / 65536

/-- `x >> 32`: floor of division by 2^32 (00_scope.md R9). -/
def shr32 (x : Int) : Int := x / 4294967296

/-- `fdiv(a, b)`, for b > 0: floor of division (00_scope.md R9). -/
def fdiv (a b : Int) : Int := Int.fdiv a b

/-! ## Cosine and sine table (R142 to R144) -/

/-- The first quarter of COSLUT: `rha(65536 × cos(2π × k / 1024))` for k in 0 .. 256 (R142). -/
def cosQuarter : List Int :=
  [65536, 65535, 65531, 65525, 65516, 65505, 65492, 65476, 65457, 65436, 65413, 65387, 65358, 65328, 65294, 65259,
   65220, 65180, 65137, 65091, 65043, 64993, 64940, 64884, 64827, 64766, 64704, 64639, 64571, 64501, 64429, 64354] ++
  [64277, 64197, 64115, 64031, 63944, 63854, 63763, 63668, 63572, 63473, 63372, 63268, 63162, 63054, 62943, 62830,
   62714, 62596, 62476, 62353, 62228, 62101, 61971, 61839, 61705, 61568, 61429, 61288, 61145, 60999, 60851, 60700] ++
  [60547, 60392, 60235, 60075, 59914, 59750, 59583, 59415, 59244, 59071, 58896, 58718, 58538, 58356, 58172, 57986,
   57798, 57607, 57414, 57219, 57022, 56823, 56621, 56418, 56212, 56004, 55794, 55582, 55368, 55152, 54934, 54714] ++
  [54491, 54267, 54040, 53812, 53581, 53349, 53114, 52878, 52639, 52398, 52156, 51911, 51665, 51417, 51166, 50914,
   50660, 50404, 50146, 49886, 49624, 49361, 49095, 48828, 48559, 48288, 48015, 47741, 47464, 47186, 46906, 46624] ++
  [46341, 46056, 45769, 45480, 45190, 44898, 44604, 44308, 44011, 43713, 43412, 43110, 42806, 42501, 42194, 41886,
   41576, 41264, 40951, 40636, 40320, 40002, 39683, 39362, 39040, 38716, 38391, 38064, 37736, 37407, 37076, 36744] ++
  [36410, 36075, 35738, 35401, 35062, 34721, 34380, 34037, 33692, 33347, 33000, 32652, 32303, 31952, 31600, 31248,
   30893, 30538, 30182, 29824, 29466, 29106, 28745, 28383, 28020, 27656, 27291, 26925, 26558, 26190, 25821, 25451] ++
  [25080, 24708, 24335, 23961, 23586, 23210, 22834, 22457, 22078, 21699, 21320, 20939, 20557, 20175, 19792, 19409,
   19024, 18639, 18253, 17867, 17479, 17091, 16703, 16314, 15924, 15534, 15143, 14751, 14359, 13966, 13573, 13180] ++
  [12785, 12391, 11996, 11600, 11204, 10808, 10411, 10014, 9616, 9218, 8820, 8421, 8022, 7623, 7224, 6824,
   6424, 6023, 5623, 5222, 4821, 4420, 4019, 3617, 3216, 2814, 2412, 2010, 1608, 1206, 804, 402] ++
  [0]

/-- COSLUT[k] for k in 0 .. 1023 (R142); the other three quarters follow from the first by R144. -/
def cosLut (k : Nat) : Int :=
  if k ≤ 256 then cosQuarter.getD k 0
  else if k ≤ 512 then - cosQuarter.getD (512 - k) 0
  else if k ≤ 768 then - cosQuarter.getD (k - 512) 0
  else cosQuarter.getD (1024 - k) 0

/-- SINLUT(i) = COSLUT[(i - 256) mod 1024] (R143), for a table index i. -/
def sinLut (i : Nat) : Int := cosLut ((i + 768) % 1024)

/-! ## NCO (R145 to R148) -/

/-- `phase(m, F) = u32(m × F)` (R145). -/
def phase (m : Nat) (f : Word) : Word := BitVec.ofNat 32 (m * f.toNat)

/-- The table index of a 32-bit word: its top ten bits (R146, R154). -/
def lutIndex (w : Word) : Nat := w.toNat / 4194304

/-- `cosNCO(m, F)` (R146). -/
def cosNco (m : Nat) (f : Word) : Int := cosLut (lutIndex (phase m f))

/-- `sinNCO(m, F)` (R146). -/
def sinNco (m : Nat) (f : Word) : Int := sinLut (lutIndex (phase m f))

/-- `F_tone(t)` (R148): CAR_FCW + DEV_FCW for tone 1, CAR_FCW - DEV_FCW for tone 0, modulo 2^32. -/
def toneFcw (t : Bool) (car dev : Word) : Word := if t then car + dev else car - dev

/-! ## Generators (R150 to R152) -/

/-- One step of the xorshift generator (R150). -/
def xs32 (x : Word) : Word :=
  let x1 := x ^^^ (x <<< 13)
  let x2 := x1 ^^^ (x1 >>> 17)
  x2 ^^^ (x2 <<< 5)

/-- The generator state after `n` steps. -/
def rngAfter : Nat → Word → Word
  | 0, g => g
  | n + 1, g => rngAfter n (xs32 g)

/-- `draw(G)` (R152) from a nonzero state: its first step gives a nonzero word, so the redraw never acts
(R151). NOISE and RUN stop on the state 0 before they draw (`noiseStuck`). -/
def draw (g : Word) : Word := xs32 g

/-! ## Gaussian kernel (R153, R154) -/

/-- The partial sum, in units of 2^-128, of the series t/d + (t·z²)/(d+2) + … with z² = a/b, each division
rounded down. -/
def atanhTail (a b : Nat) : Nat → Nat → Nat → Nat
  | 0, _, _ => 0
  | n + 1, d, t => t / d + atanhTail a b n (d + 2) (t * a / b)

/-- ln((b + a) / (b - a)) = 2·atanh(a/b) in units of 2^-128, from 48 terms of its series. -/
def lnRatio (a b : Nat) : Nat :=
  atanhTail (a * a) (b * b) 48 1 (2 * a * 340282366920938463463374607431768211456 / b)

/-- ln(2^32 / w) in units of 2^-128, for w in 1 .. 2^32 - 1: with e the place of the top bit of w, it is
(31 - e)·ln 2 + ln(2^(e+1) / w). -/
def lnInv (w : Nat) : Nat :=
  (31 - w.log2) * lnRatio 1 3 + lnRatio (2 <<< w.log2 - w) (2 <<< w.log2 + w)

/-- The integer square root, one bit of the root at a time, from bit `n - 1` down. -/
def isqrtBits (t : Nat) : Nat → Nat → Nat
  | 0, r => r
  | n + 1, r =>
    if (r + 1 <<< n) * (r + 1 <<< n) ≤ t then isqrtBits t n (r + 1 <<< n) else isqrtBits t n r

/-- RAD(w) = rha(65536 × sqrt(-2 × ln(w / 2^32))) for w in 1 .. 2^32 - 1 (R153). With T the floor of
2^35 × ln(2^32 / w), r is that value exactly when (2r - 1)² ≤ T < (2r + 1)². Assumption log 5. -/
def rad (w : Word) : Nat :=
  (isqrtBits (lnInv w.toNat / 9903520314283042199192993792) 21 0 + 1) / 2

/-- `noiseval(sigma, wu, wv)` (R154). -/
def noiseval (sigma : Int) (wu wv : Word) : Int :=
  shr32 (sigma * (rad wu : Int) * cosLut (lutIndex wv))

end Sys2Proof.Machine
end

