-- ==== Sys2Proof/Machine/Memory.lean ====
section
/-! DEFINITION. The buffers' memory as a list of (address, byte) pairs: its canonical form, reading a byte, and
the one operation that writes a block of bytes; words over it in the byte order of spec/20_memory.md R89. -/

namespace Sys2Proof.Machine

/-- The canonical form: the listed addresses are strictly rising. (No entry can equal what an unlisted address
holds, since an unlisted address holds no byte: assumption log 2.) -/
def Memory.wf : Memory → Bool
  | [] => true
  | [_] => true
  | c :: d :: r => decide (c.1 < d.1) && Memory.wf (d :: r)

/-- The byte addresses of the four buffers (R81). -/
def inBuffer (a : Nat) : Bool :=
  (decide (Config.bitBase ≤ a) && decide (a < Config.bitBase + 4 * Config.bitWords)) ||
  (decide (Config.symBase ≤ a) && decide (a < Config.symBase + 4 * Config.symWords)) ||
  (decide (Config.estBase ≤ a) && decide (a < Config.estBase + 4 * Config.estWords)) ||
  (decide (Config.sigBase ≤ a) && decide (a < Config.sigBase + 4 * Config.sigWords))

/-- Every listed address lies in a buffer. -/
def Memory.inBuffers (m : Memory) : Bool := m.all fun c => inBuffer c.1

/-- The byte listed at an address. -/
def memGet? : Memory → Nat → Option Byte
  | [], _ => none
  | c :: r, a => if c.1 = a then some c.2 else memGet? r a

/-- `bs` laid out from address `a` up. -/
def memCells : Nat → List Byte → Memory
  | _, [] => []
  | a, b :: bs => (a, b) :: memCells (a + 1) bs

/-- Write the bytes `bs` to the addresses from `a` up: the entries below, the block, the entries above. -/
def memPutBlock (m : Memory) (a : Nat) (bs : List Byte) : Memory :=
  m.filter (fun c => decide (c.1 < a)) ++ memCells a bs ++
    m.filter (fun c => decide (a + bs.length ≤ c.1))

/-- The four bytes of a word, the least significant first (R89). -/
def wordBytes (w : Word) : List Byte :=
  [w.extractLsb' 0 8, w.extractLsb' 8 8, w.extractLsb' 16 8, w.extractLsb' 24 8]

/-- The bytes of consecutive words. -/
def wordsBytes : List Word → List Byte
  | [] => []
  | w :: ws => wordBytes w ++ wordsBytes ws

/-- Write consecutive words from byte address `a` up. -/
def memPutWords (m : Memory) (a : Nat) (ws : List Word) : Memory :=
  memPutBlock m a (wordsBytes ws)

/-- The byte at an address: the one listed, or the free byte the buffer has held since the last power-on
(R95; assumption log 2). -/
def State.byteAt (s : State) (a : Nat) : Byte :=
  (memGet? s.mem a).getD (Config.powerOnByte s.powerOns a)

/-- The word at byte addresses `a` to `a + 3`, little-endian (R89). -/
def State.wordAt (s : State) (a : Nat) : Word :=
  s.byteAt (a + 3) ++ s.byteAt (a + 2) ++ s.byteAt (a + 1) ++ s.byteAt a

end Sys2Proof.Machine
end

