-- ==== Sys2Proof/Syntax.lean ====
section
/-! DEFINITION. The instructions of QAMCORE: one constructor per row of spec/opcode_table.json, that is the
sixteen legal command words (30_encoding.md R119) and the two host bus transactions (R124), with the two
carriers an instruction comes in and the answers of the command decoder (R120). -/

namespace Sys2Proof

/-- The five modulation schemes (30_encoding.md R113). -/
inductive Scheme where
  | ask
  | fsk
  | bpsk
  | qpsk
  | qam16
deriving DecidableEq, Repr

/-- The instructions. A command carries no operand (R114); a bus transaction carries its byte address and,
for a write, its data word (46_control.md R268, R269). -/
inductive Instr where
  | nop
  | genbits
  | mapAsk
  | mapFsk
  | mapBpsk
  | mapQpsk
  | mapQam16
  | synth
  | noise
  | demod
  | runAsk
  | runFsk
  | runBpsk
  | runQpsk
  | runQam16
  | sreset
  | busRd (a : BusAddr)
  | busWr (a : BusAddr) (d : Word)
deriving DecidableEq, Repr

/-- What an instruction is read from: a 32-bit command word, the data of a host write to CMD (R110), or one
packed host bus transaction (R124). -/
inductive Packet where
  | command (w : Word)
  | transaction (t : BusTuple)
deriving DecidableEq, Repr

/-- The answers of the decoding procedure of R120: an instruction, or one of its three rejections by name. -/
inductive Decoded where
  | instr (i : Instr)
  /-- `ILLEGAL`: the command completes with E_ILLEGAL_CMD (R115). -/
  | illegal
  /-- `MAP_BADSCHEME`: MAP with SCH 5, 6 or 7 completes with E_SCHEME (R116). -/
  | mapBadScheme
  /-- `RUN_BADSCHEME`: RUN with SCH 5, 6 or 7 completes with E_SCHEME (R116). -/
  | runBadScheme
deriving DecidableEq, Repr

end Sys2Proof
end

