-- ==== Sys2Proof/Machine/Operands.lean ====
section
/-! DEFINITION. The operands of the commands (spec/30_encoding.md R114): the CSRs as the numbers a command reads
them as (R121), the fields of the info registers, and the buffer accessors of 00_scope.md R11. -/

namespace Sys2Proof.Machine

/-- NBITS, unsigned (10_state.md R31). -/
def State.nbitsVal (s : State) : Nat := s.csr.nbits.toNat

/-- NSPS, unsigned (R32). -/
def State.nspsVal (s : State) : Nat := s.csr.nsps.toNat

/-- AMP, read as s32 (R33). -/
def State.ampVal (s : State) : Int := s.csr.amp.toInt

/-- SIGMA, read as s32 (R36). -/
def State.sigmaVal (s : State) : Int := s.csr.sigma.toInt

/-- SYM_COUNT (R39) and SIG_COUNT (R41), unsigned. -/
def State.symCountVal (s : State) : Nat := s.csr.symCount.toNat
def State.sigCountVal (s : State) : Nat := s.csr.sigCount.toNat

/-- CTRL.DGAIN (R24). -/
def State.dgain (s : State) : Bool := s.csr.ctrl.getLsbD 0

/-- Field KIND, bits 1..0 of an info register (R40, R42, R44). -/
def kindOf (info : Word) : Nat := (info.extractLsb' 0 2).toNat

/-- Field SCHEME, bits 6..4 of an info register (R40, R42, R44). -/
def schemeOf (info : Word) : Nat := (info.extractLsb' 4 3).toNat

/-- The info word `kind | (scheme << 4)`. -/
def infoWord (kind scheme : Nat) : Word := BitVec.ofNat 32 (kind + 16 * scheme)

/-- Scheme codes (30_encoding.md R113). -/
def schemeCode : Scheme → Nat
  | .ask => 0
  | .fsk => 1
  | .bpsk => 2
  | .qpsk => 3
  | .qam16 => 4

/-- `bps(s)`, bits per symbol (R113). -/
def bps : Scheme → Nat
  | .ask => 1
  | .fsk => 1
  | .bpsk => 1
  | .qpsk => 2
  | .qam16 => 4

/-- The symbol KIND a scheme writes: 1 IQ, 2 TONE (R113). -/
def schemeKind : Scheme → Nat
  | .ask => 1
  | .fsk => 2
  | .bpsk => 1
  | .qpsk => 1
  | .qam16 => 1

/-- `BITMEM[j]`, `SYMMEM[j]`, `ESTMEM[j]`, `SIGMEM[j]` (00_scope.md R11, 20_memory.md R82). -/
def State.bitWord (s : State) (j : Nat) : Word := s.wordAt (Config.bitBase + 4 * j)
def State.symWord (s : State) (j : Nat) : Word := s.wordAt (Config.symBase + 4 * j)
def State.estWord (s : State) (j : Nat) : Word := s.wordAt (Config.estBase + 4 * j)
def State.sigWord (s : State) (j : Nat) : Word := s.wordAt (Config.sigBase + 4 * j)

/-- `BIT(i)`, stream bit i (20_memory.md R90). -/
def State.streamBit (s : State) (i : Nat) : Bool := (s.bitWord (i / 32)).getLsbD (i % 32)

/-- Sample m of SIG_MEM, read as s32 (R93). -/
def State.sample (s : State) (m : Nat) : Int := (s.sigWord m).toInt

end Sys2Proof.Machine
end

