-- ==== Sys2Proof/Machine/Ops.lean ====
section
/-! DEFINITION. The operations the meanings share: address decoding (spec/20_memory.md R81, 10_state.md R55), the
register file as the bus reads it, acceptance of a command (46_control.md R270), the two ways a command ends
(70_reset_and_hazards.md R335, 60_exceptions.md R286), and storing a command's results (40_kernels.md R140, R141). -/

namespace Sys2Proof.Machine

/-! ## Address decoding -/

/-- The regions of the address map (R81). -/
inductive Region where
  | csrWindow
  | bitMem
  | symMem
  | estMem
  | sigMem
  | unmapped
deriving DecidableEq, Repr

/-- The region an address falls into (R81). -/
def regionOf (a : BusAddr) : Region :=
  if a.toNat < 0x00100 then .csrWindow
  else if a.toNat < 0x01000 then .unmapped
  else if a.toNat < 0x01200 then .bitMem
  else if a.toNat < 0x10000 then .unmapped
  else if a.toNat < 0x18000 then .symMem
  else if a.toNat < 0x20000 then .estMem
  else if a.toNat < 0x40000 then .unmapped
  else if a.toNat < 0x80000 then .sigMem
  else .unmapped

/-- `a[1:0] = 0` (R84 to R86). -/
def aligned (a : BusAddr) : Bool := a.toNat % 4 == 0

/-- The CSRs by name (10_state.md R55). -/
inductive Csr where
  | id
  | caps
  | ctrl
  | status
  | irqEn
  | cmd
  | errCode
  | errCmd
  | nbits
  | nsps
  | amp
  | carFcw
  | devFcw
  | sigma
  | brng
  | nrng
  | symCount
  | symInfo
  | sigCount
  | sigInfo
  | estCount
  | estInfo
deriving DecidableEq, Repr

/-- The CSR at an offset of the window; `none` at a reserved offset (R45, R55). -/
def csrAt (off : Nat) : Option Csr :=
  match off with
  | 0x000 => some .id
  | 0x004 => some .caps
  | 0x008 => some .ctrl
  | 0x00C => some .status
  | 0x010 => some .irqEn
  | 0x014 => some .cmd
  | 0x018 => some .errCode
  | 0x01C => some .errCmd
  | 0x020 => some .nbits
  | 0x024 => some .nsps
  | 0x028 => some .amp
  | 0x02C => some .carFcw
  | 0x030 => some .devFcw
  | 0x034 => some .sigma
  | 0x038 => some .brng
  | 0x03C => some .nrng
  | 0x040 => some .symCount
  | 0x044 => some .symInfo
  | 0x048 => some .sigCount
  | 0x04C => some .sigInfo
  | 0x050 => some .estCount
  | 0x054 => some .estInfo
  | _ => none

/-- The value a CSR holds, as a read while BUSY = 0 returns it; CMD reads as LAST_CMD (R28). -/
def State.csrValue (s : State) : Csr → Word
  | .id => Config.idValue
  | .caps => Config.capsValue
  | .ctrl => s.csr.ctrl
  | .status => s.csr.status
  | .irqEn => s.csr.irqEn
  | .cmd => s.csr.lastCmd
  | .errCode => s.csr.errCode
  | .errCmd => s.csr.errCmd
  | .nbits => s.csr.nbits
  | .nsps => s.csr.nsps
  | .amp => s.csr.amp
  | .carFcw => s.csr.carFcw
  | .devFcw => s.csr.devFcw
  | .sigma => s.csr.sigma
  | .brng => s.csr.brng
  | .nrng => s.csr.nrng
  | .symCount => s.csr.symCount
  | .symInfo => s.csr.symInfo
  | .sigCount => s.csr.sigCount
  | .sigInfo => s.csr.sigInfo
  | .estCount => s.csr.estCount
  | .estInfo => s.csr.estInfo

/-! ## Acceptance of a command (R270) -/

/-- Latch a command word: PEND and LAST_CMD take it, BUSY is set and DONE cleared (R270, idle branch). -/
def State.latchCommand (s : State) (w : Word) : State :=
  { s with
    pend := some w
    csr := { s.csr with
      lastCmd := w
      status := setBits (clearBits s.csr.status fDone) fBusy } }

/-- A host write of `w` to CMD (R270): dropped with CMD_OVR while BUSY = 1 (70_reset_and_hazards.md R331). -/
def State.acceptCommand (s : State) (w : Word) : State :=
  if s.busy then s.raiseFlags fCmdOvr else s.latchCommand w

/-! ## The two ways a command ends -/

/-- The errors a command can end with (60_exceptions.md R281). -/
inductive CmdError where
  | illegalCmd
  | scheme
  | bitlen
  | param
  | capacity
  | nodata
deriving DecidableEq, Repr

/-- The codes of ERR_CODE (R281). -/
def errorCode : CmdError → Word
  | .illegalCmd => 0x01#32
  | .scheme => 0x02#32
  | .bitlen => 0x03#32
  | .param => 0x04#32
  | .capacity => 0x05#32
  | .nodata => 0x06#32

/-- The command word the engine runs: the word in PEND (70_reset_and_hazards.md R335). The step runs no command with PEND
empty; the 0 given for that case is met in no run. -/
def State.pendWord (s : State) : Word := s.pend.getD 0#32

/-- The error record after an error: the first error is kept (60_exceptions.md R286, R289). -/
def Csrs.recordError (c : Csrs) (e : CmdError) (cmd : Word) : Csrs :=
  if c.status.getLsbD 2 then { c with status := setBits c.status fErrMulti }
  else { c with errCode := errorCode e, errCmd := cmd }

/-- TAKING AN ERROR, `raise E_X(cmd)` (R286): the record, ERR and DONE set, BUSY cleared; PEND is emptied (R335). -/
def State.raiseError (s : State) (e : CmdError) : State :=
  let c := s.csr.recordError e s.pendWord
  { s with
    pend := none
    csr := { c with status := clearBits (setBits c.status (fErr ||| fDone)) fBusy } }

/-- Success (70_reset_and_hazards.md R335): PEND is emptied, BUSY cleared, DONE set. -/
def State.complete (s : State) : State :=
  { s with
    pend := none
    csr := { s.csr with status := setBits (clearBits s.csr.status fBusy) fDone } }

/-- A command's end: with the first error its checks find, and nothing else done, or with its body's effect
(R286, R290, R335). -/
def finishCommand (s : State) (check : Option CmdError) (body : State → State) :
    Host.Outcome State Fault Refusal :=
  match check with
  | some e => .next (s.raiseError e)
  | none => .next (body s).complete

/-! ## Storing results (40_kernels.md R140, R141) -/

/-- Write consecutive words of a buffer from byte address `base` up. -/
def State.putWords (s : State) (base : Nat) (ws : List Word) : State :=
  { s with mem := memPutWords s.mem base ws }

/-- Store exact integer results as consecutive words from byte address `base` up: each is saturated, and SAT is set
if any of them saturates. -/
def State.storeResults (s : State) (base : Nat) (vs : List Int) : State :=
  { s with
    mem := memPutWords s.mem base (vs.map storedWord)
    csr := { s.csr with
      status := if vs.any saturates then setBits s.csr.status fSat else s.csr.status } }

/-! ## Steps and inputs -/

/-- What every step does first: it takes the next input off the list, and counts itself. -/
def State.beginStep (s : State) : State := { s with turns := s.turns.tail, drawIx := s.drawIx + 1 }

/-- The state whose very next step makes ENGINE run the command word `w`: the word is latched as acceptance
latches it (R270), and ENGINE has the next turn. -/
def State.loadCommand (s : State) (w : Word) : State :=
  let s' := s.latchCommand w
  { s' with presetn := true, turns := .engine :: s.turns }

/-- The state whose very next step makes HOST issue the transaction `t`. -/
def State.loadTransaction (s : State) (t : BusTuple) : State :=
  { s with presetn := true, turns := .bus t :: s.turns }

end Sys2Proof.Machine
end

