-- ==== Sys2Proof/Machine/BitSource.lean ====
section
/-! DEFINITION. GENBITS, the bit source (spec/41_bitsource.md R171). -/

namespace Sys2Proof.Machine

/-- The checks of GENBITS, in order (R171, 60_exceptions.md R290). -/
def genbitsCheck (s : State) : Option CmdError :=
  if s.nbitsVal = 0 then some .param
  else if s.nbitsVal > Config.bitCap then some .capacity
  else none

/-- The `n` bits drawn from generator state `g`: bit 31 of each new state (R171). -/
def drawnBits : Nat → Word → List Bool
  | 0, _ => []
  | n + 1, g => (xs32 g).getLsbD 31 :: drawnBits n (xs32 g)

/-- The number whose bits are `bs`, the first the least significant. -/
def bitsNat : List Bool → Nat
  | [] => 0
  | b :: bs => (if b then 1 else 0) + 2 * bitsNat bs

/-- A BIT_MEM word with its low bits replaced by `bs` (at most 32 of them) and the others kept (R90, R171). -/
def mergeBits (old : Word) (bs : List Bool) : Word :=
  (old >>> bs.length) <<< bs.length ||| BitVec.ofNat 32 (bitsNat bs)

/-- The BIT_MEM words GENBITS writes: those that hold stream bits 0 .. n-1. -/
def genbitsWords (s : State) : List Word :=
  (List.range ((s.nbitsVal + 31) / 32)).map fun j =>
    mergeBits (s.bitWord j) (((drawnBits s.nbitsVal s.csr.brng).drop (32 * j)).take 32)

/-- The body of GENBITS after its checks (R171). -/
def genbitsBody (s : State) : State :=
  let s' := s.putWords Config.bitBase (genbitsWords s)
  { s' with csr := { s.csr with brng := rngAfter s.nbitsVal s.csr.brng } }

/-- GENBITS (R171). -/
def execGenbits (s : State) : Host.Outcome State Fault Refusal :=
  finishCommand s (genbitsCheck s) genbitsBody

end Sys2Proof.Machine
end

