-- ==== Sys2Proof/Machine/Bus.lean ====
section
/-! DEFINITION. The host bus transactions BUS.RD and BUS.WR (spec/46_control.md R268, R269): `MemRead` and `MemWrite` of
20_memory.md R84 and R85, with the write rule of every CSR (10_state.md R24 to R46) and the rules for accesses while
BUSY = 1 (70_reset_and_hazards.md R331 to R334). -/

namespace Sys2Proof.Machine

/-! ## Reads -/

/-- The CSRs whose read while BUSY = 1 is unspecified as a whole (70_reset_and_hazards.md R333). -/
def hiddenWhileBusy : Csr → Bool
  | .brng => true
  | .nrng => true
  | .symCount => true
  | .symInfo => true
  | .sigCount => true
  | .sigInfo => true
  | .estCount => true
  | .estInfo => true
  | .errCode => true
  | .errCmd => true
  | _ => false

/-- What a host read of a CSR at address `a` returns (R84, R333). -/
def State.seenCsr (s : State) (a : BusAddr) (c : Csr) : Word :=
  if s.busy && hiddenWhileBusy c then Config.busyRead s.drawIx a
  else if c = .status then s.seenStatus a
  else s.csrValue c

/-- What a host read of a buffer word returns (R84, R333). -/
def State.seenBuffer (s : State) (a : BusAddr) : Word :=
  if s.busy then Config.busyRead s.drawIx a else s.wordAt a.toNat

/-- `MemRead(a, 4)` (R84): the answer to a read. -/
def State.memRead (s : State) (a : BusAddr) : Reply :=
  if aligned a then
    match regionOf a with
    | .csrWindow =>
      match csrAt a.toNat with
      | some c => .readData .ok (s.seenCsr a c)
      | none => .readData .ok 0x00000000#32
    | .bitMem => .readData .ok (s.seenBuffer a)
    | .symMem => .readData .ok (s.seenBuffer a)
    | .estMem => .readData .ok (s.seenBuffer a)
    | .sigMem => .readData .ok (s.seenBuffer a)
    | .unmapped => .readData .err 0x00000000#32
  else .readData .err 0x00000000#32

/-- BUS.RD (R268): a read changes nothing but the slave's answer. -/
def execBusRd (a : BusAddr) (s : State) : Host.Outcome State Fault Refusal :=
  .next { s with reply := some (s.memRead a) }

/-! ## Writes -/

/-- A write that is dropped with WR_BUSY while BUSY = 1 and otherwise takes the effect `f` (70_reset_and_hazards.md
R332). -/
def State.writeIdle (s : State) (f : State → State) : State :=
  if s.busy then s.raiseFlags fWrBusy else f s

/-- Replace the CSR file. -/
def State.setCsr (s : State) (c : Csrs) : State := { s with csr := c }

/-- A host write of `v` to STATUS (10_state.md R26): W1C, and a 1 in bit 2 clears ERR_CODE and ERR_CMD. -/
def State.writeStatus (s : State) (v : Word) : State :=
  s.setCsr { s.csr with
    status := clearBits s.csr.status (v &&& w1cMask)
    errCode := if v.getLsbD 2 then 0#32 else s.csr.errCode
    errCmd := if v.getLsbD 2 then 0#32 else s.csr.errCmd }

/-- The write rule of each CSR (10_state.md R24 to R46). -/
def State.writeCsr (s : State) (c : Csr) (v : Word) : State :=
  match c with
  | .id => s
  | .caps => s
  | .ctrl => s.writeIdle fun s => s.setCsr { s.csr with ctrl := v &&& 0x00000001#32 }
  | .status => s.writeStatus v
  | .irqEn => s.setCsr { s.csr with irqEn := v &&& 0x00000007#32 }
  | .cmd => s.acceptCommand v
  | .errCode => s
  | .errCmd => s
  | .nbits => s.writeIdle fun s => s.setCsr { s.csr with nbits := v }
  | .nsps => s.writeIdle fun s => s.setCsr { s.csr with nsps := v }
  | .amp => s.writeIdle fun s => s.setCsr { s.csr with amp := v }
  | .carFcw => s.writeIdle fun s => s.setCsr { s.csr with carFcw := v }
  | .devFcw => s.writeIdle fun s => s.setCsr { s.csr with devFcw := v }
  | .sigma => s.writeIdle fun s => s.setCsr { s.csr with sigma := v }
  | .brng => s.writeIdle fun s => s.setCsr { s.csr with brng := if v = 0#32 then Config.bSeed0 else v }
  | .nrng => s.writeIdle fun s => s.setCsr { s.csr with nrng := if v = 0#32 then Config.nSeed0 else v }
  | .symCount => s
  | .symInfo => s
  | .sigCount => s.writeIdle fun s => s.setCsr { s.csr with sigCount := v }
  | .sigInfo => s.writeIdle fun s => s.setCsr { s.csr with sigInfo := v &&& 0x00000173#32 }
  | .estCount => s
  | .estInfo => s

/-- Whether `MemWrite(a, 4, d)` is answered OK (R85, R86). -/
def writeAnswered (a : BusAddr) : Bool := aligned a && regionOf a != .unmapped

/-- The effect of `MemWrite(a, 4, d)` on the state (R85). -/
def State.memWrite (s : State) (a : BusAddr) (d : Word) : State :=
  if aligned a then
    match regionOf a with
    | .csrWindow =>
      match csrAt a.toNat with
      | some c => s.writeCsr c d
      | none => s
    | .bitMem => s.writeIdle fun s => s.putWords a.toNat [d]
    | .symMem => s
    | .estMem => s
    | .sigMem => s.writeIdle fun s => s.putWords a.toNat [d]
    | .unmapped => s
  else s

/-- BUS.WR (R269). -/
def execBusWr (a : BusAddr) (d : Word) (s : State) : Host.Outcome State Fault Refusal :=
  .next { s.memWrite a d with reply := some (.writeAck (if writeAnswered a then .ok else .err)) }

end Sys2Proof.Machine
end

