-- ==== Sys2Proof/Machine/Demod.lean ====
section
/-! DEFINITION. DEMOD, the matched-filter correlator (spec/45_demod.md R241 to R244). -/

namespace Sys2Proof.Machine

/-- The checks of DEMOD, in order; a TONE signal is checked for E_NODATA only (R241, 60_exceptions.md R290). -/
def demodCheck (s : State) : Option CmdError :=
  if kindOf s.csr.sigInfo = 0 ∨ kindOf s.csr.sigInfo = 3 then some .nodata
  else if kindOf s.csr.sigInfo = 2 then none
  else if s.sigCountVal > Config.sigCap then some .capacity
  else if s.nspsVal = 0 then some .param
  else if s.sigCountVal % s.nspsVal ≠ 0 then some .bitlen
  else if s.sigCountVal / s.nspsVal > Config.bitCap then some .capacity
  else none

/-- The I arm over the first `n` samples of window k (R242): the exact sum of signal · cos. -/
def accI (s : State) (k : Nat) : Nat → Int
  | 0 => 0
  | n + 1 => accI s k n + s.sample (k * s.nspsVal + n) * cosNco (k * s.nspsVal + n) s.csr.carFcw

/-- The Q arm over the first `n` samples of window k (R242): the exact sum of −signal · sin. -/
def accQ (s : State) (k : Nat) : Nat → Int
  | 0 => 0
  | n + 1 => accQ s k n - s.sample (k * s.nspsVal + n) * sinNco (k * s.nspsVal + n) s.csr.carFcw

/-- The gain g = 1 + DGAIN (R244). -/
def demodGain (s : State) : Int := if s.dgain then 2 else 1

/-- `correlate(k, N, C, g)` before saturation (R242). R246's exact round trip of a positive level is not imposed: it can
fail for a small level, because the samples are floored (R203). DEDUCED, assumption log 20. -/
def estimateI (s : State) (k : Nat) : Int := fdiv (demodGain s * accI s k s.nspsVal) (s.nspsVal * 65536)
def estimateQ (s : State) (k : Nat) : Int := fdiv (demodGain s * accQ s k s.nspsVal) (s.nspsVal * 65536)

/-- The number of windows S = M / N (R241). -/
def demodCount (s : State) : Nat := s.sigCountVal / s.nspsVal

/-- The entries DEMOD writes: word 2k is I_est, word 2k + 1 is Q_est (20_memory.md R92). -/
def demodEntries (s : State) : List Int :=
  (List.range (2 * demodCount s)).map fun j =>
    if j % 2 = 0 then estimateI s (j / 2) else estimateQ s (j / 2)

/-- EST_INFO of a VALID result: KIND 1, the signal's SCHEME, and DGAIN in bit 8 (R241, 10_state.md R44). -/
def estInfoValid (s : State) : Word :=
  BitVec.ofNat 32 (1 + 16 * schemeOf s.csr.sigInfo + (if s.dgain then 256 else 0))

/-- The body of DEMOD after its checks (R241): the EMPTY result for a TONE signal (R243), else the estimates. -/
def demodBody (s : State) : State :=
  if kindOf s.csr.sigInfo = 2 then
    { s with
      csr := { s.csr with
        estCount := 0#32
        estInfo := infoWord 2 (schemeOf s.csr.sigInfo) } }
  else
    let s' := s.storeResults Config.estBase (demodEntries s)
    { s' with
      csr := { s'.csr with
        estCount := BitVec.ofNat 32 (demodCount s)
        estInfo := estInfoValid s } }

/-- DEMOD (R241). -/
def execDemod (s : State) : Host.Outcome State Fault Refusal :=
  finishCommand s (demodCheck s) demodBody

end Sys2Proof.Machine
end

