-- ==== Sys2Proof/Machine/Mapper.lean ====
section
/-! DEFINITION. The five MAP commands (spec/42_mapper.md R181 to R186, R189). Each `map_s` gives the exact integers
whose saturated words are stored. -/

namespace Sys2Proof.Machine

/-- The checks of MAP.s after the scheme check, in order (R181, 60_exceptions.md R290). -/
def mapCheck (c : Scheme) (s : State) : Option CmdError :=
  if s.nbitsVal > Config.bitCap then some .capacity
  else if s.nbitsVal < bps c ∨ s.nbitsVal % bps c ≠ 0 then some .bitlen
  else none

/-- `map_0`: on/off keying (R182). -/
def pointAsk (g0 : Bool) (a : Int) : Int × Int := if g0 then (a, 0) else (0, 0)

/-- `map_1`: the tone bit (R183). -/
def pointFsk (g0 : Bool) : Int × Int := if g0 then (1, 0) else (0, 0)

/-- `map_2` (R184). -/
def pointBpsk (g0 : Bool) (a : Int) : Int × Int := if g0 then (a, 0) else (-a, 0)

/-- `map_3` (R185). -/
def pointQpsk (g0 g1 : Bool) (a : Int) : Int × Int :=
  match g0, g1 with
  | false, false => (a, a)
  | false, true => (-a, a)
  | true, true => (-a, -a)
  | true, false => (a, -a)

/-- `ax` (R186). -/
def axisLevel (x y : Bool) : Int :=
  match x, y with
  | false, false => 3
  | false, true => 1
  | true, true => -1
  | true, false => -3

/-- `map_4` (R186). -/
def pointQam16 (g0 g1 g2 g3 : Bool) (a : Int) : Int × Int :=
  (shr16 (axisLevel g0 g1 * Config.k10 * a), shr16 (axisLevel g2 g3 * Config.k10 * a))

/-- The point of symbol k: `map_s(g, A)` on the bit group g of symbol k (R181). -/
def symbolPoint (c : Scheme) (s : State) (k : Nat) : Int × Int :=
  match c with
  | .ask => pointAsk (s.streamBit k) s.ampVal
  | .fsk => pointFsk (s.streamBit k)
  | .bpsk => pointBpsk (s.streamBit k) s.ampVal
  | .qpsk => pointQpsk (s.streamBit (2 * k)) (s.streamBit (2 * k + 1)) s.ampVal
  | .qam16 =>
    pointQam16 (s.streamBit (4 * k)) (s.streamBit (4 * k + 1)) (s.streamBit (4 * k + 2))
      (s.streamBit (4 * k + 3)) s.ampVal

/-- The symbol count S = n / b (R181). -/
def mapCount (c : Scheme) (s : State) : Nat := s.nbitsVal / bps c

/-- The entries MAP.s writes: word 2k is I (or the tone bit), word 2k + 1 is Q (20_memory.md R91). -/
def mapEntries (c : Scheme) (s : State) : List Int :=
  (List.range (2 * mapCount c s)).map fun j =>
    if j % 2 = 0 then (symbolPoint c s (j / 2)).1 else (symbolPoint c s (j / 2)).2

/-- The body of MAP.s after its checks (R181). -/
def mapBody (c : Scheme) (s : State) : State :=
  let s' := s.storeResults Config.symBase (mapEntries c s)
  { s' with
    csr := { s'.csr with
      symCount := BitVec.ofNat 32 (mapCount c s)
      symInfo := infoWord (schemeKind c) (schemeCode c) } }

/-- MAP.ASK (R182). -/
def execMapAsk (s : State) : Host.Outcome State Fault Refusal :=
  finishCommand s (mapCheck .ask s) (mapBody .ask)

/-- MAP.FSK (R183). -/
def execMapFsk (s : State) : Host.Outcome State Fault Refusal :=
  finishCommand s (mapCheck .fsk s) (mapBody .fsk)

/-- MAP.BPSK (R184). -/
def execMapBpsk (s : State) : Host.Outcome State Fault Refusal :=
  finishCommand s (mapCheck .bpsk s) (mapBody .bpsk)

/-- MAP.QPSK (R185). -/
def execMapQpsk (s : State) : Host.Outcome State Fault Refusal :=
  finishCommand s (mapCheck .qpsk s) (mapBody .qpsk)

/-- MAP.QAM16 (R186). -/
def execMapQam16 (s : State) : Host.Outcome State Fault Refusal :=
  finishCommand s (mapCheck .qam16 s) (mapBody .qam16)

end Sys2Proof.Machine
end

