-- ==== Sys2Proof/Machine/Noise.lean ====
section
/-! DEFINITION. NOISE, the Gaussian noise adder (spec/44_noise.md R221, R222). -/

namespace Sys2Proof.Machine

/-- The checks of NOISE, in order (R221, 60_exceptions.md R290). -/
def noiseCheck (s : State) : Option CmdError :=
  if s.sigmaVal < 0 then some .param
  else if kindOf s.csr.sigInfo = 0 ∨ kindOf s.csr.sigInfo = 3 then some .nodata
  else if s.sigCountVal > Config.sigCap then some .capacity
  else none

/-- The samples from index m on, `n` of them, with the noise drawn from generator state `g` added: for each sample
the word for u is drawn first, then the word for v (R221, R222). -/
def noisySamples (s : State) : Nat → Nat → Word → List Int
  | 0, _, _ => []
  | n + 1, m, g =>
    (s.sample m + noiseval s.sigmaVal (draw g) (draw (draw g))) ::
      noisySamples s n (m + 1) (draw (draw g))

/-- The body of NOISE after its checks (R221): a no-op when sigma = 0. -/
def noiseBody (s : State) : State :=
  if s.sigmaVal = 0 then s
  else
    let s' := s.storeResults Config.sigBase (noisySamples s s.sigCountVal 0 s.csr.nrng)
    { s' with
      csr := { s'.csr with
        nrng := rngAfter (2 * s.sigCountVal) s.csr.nrng
        sigInfo := s.csr.sigInfo ||| 0x100#32 } }

/-- Drawing `m` samples' noise would never end: a draw is needed and the generator state is 0 (40_kernels.md
R152), which R151 rules out of every run. -/
def noiseStuck (s : State) (m : Nat) : Bool :=
  decide (0 < s.sigmaVal) && decide (0 < m) && s.csr.nrng == 0#32

/-- NOISE (R221). -/
def execNoise (s : State) : Host.Outcome State Fault Refusal :=
  if noiseCheck s = none ∧ noiseStuck s s.sigCountVal = true then .fault .drawNeverEnds
  else finishCommand s (noiseCheck s) noiseBody

end Sys2Proof.Machine
end

