-- ==== Sys2Proof/Machine/Synth.lean ====
section
/-! DEFINITION. SYNTH, the waveform synthesizer (spec/43_synth.md R202 to R204). -/

namespace Sys2Proof.Machine

/-- The checks of SYNTH, in order (R202, 60_exceptions.md R290). -/
def synthCheck (s : State) : Option CmdError :=
  if kindOf s.csr.symInfo = 0 then some .nodata
  else if s.nspsVal = 0 then some .param
  else if s.symCountVal * s.nspsVal > Config.sigCap then some .capacity
  else none

/-- `sampleIQ(k, m)` before saturation (R203). -/
def sampleIQ (s : State) (k m : Nat) : Int :=
  shr16 ((s.symWord (2 * k)).toInt * cosNco m s.csr.carFcw -
    (s.symWord (2 * k + 1)).toInt * sinNco m s.csr.carFcw)

/-- `sampleTone(k, m)` before saturation (R204). -/
def sampleTone (s : State) (k m : Nat) : Int :=
  shr16 (s.ampVal * cosNco m (toneFcw ((s.symWord (2 * k)).getLsbD 0) s.csr.carFcw s.csr.devFcw))

/-- Sample m of the signal; it belongs to symbol k = m / N, since m = k·N + n with n < N (R202). -/
def synthSample (s : State) (m : Nat) : Int :=
  if kindOf s.csr.symInfo = 1 then sampleIQ s (m / s.nspsVal) m else sampleTone s (m / s.nspsVal) m

/-- The number of samples SYNTH writes, S × N. -/
def synthCount (s : State) : Nat := s.symCountVal * s.nspsVal

/-- The body of SYNTH after its checks (R202). -/
def synthBody (s : State) : State :=
  let s' := s.storeResults Config.sigBase ((List.range (synthCount s)).map (synthSample s))
  { s' with
    csr := { s'.csr with
      sigCount := BitVec.ofNat 32 (synthCount s)
      sigInfo := infoWord (kindOf s.csr.symInfo) (schemeOf s.csr.symInfo) } }

/-- SYNTH (R202). -/
def execSynth (s : State) : Host.Outcome State Fault Refusal :=
  finishCommand s (synthCheck s) synthBody

end Sys2Proof.Machine
end

