-- ==== Sys2Proof/Machine/Control.lean ====
section
/-! DEFINITION. NOP, the five RUN commands and SRESET (spec/46_control.md R260 to R267). -/

namespace Sys2Proof.Machine

/-- NOP (R260): the completion bookkeeping only. -/
def execNop (s : State) : Host.Outcome State Fault Refusal := finishCommand s none id

/-- The checks of RUN.s after the scheme check, in order (R261, 60_exceptions.md R290). -/
def runCheck (c : Scheme) (s : State) : Option CmdError :=
  if s.nbitsVal > Config.bitCap then some .capacity
  else if s.nbitsVal < bps c ∨ s.nbitsVal % bps c ≠ 0 then some .bitlen
  else if s.nspsVal = 0 then some .param
  else if s.nbitsVal / bps c * s.nspsVal > Config.sigCap then some .capacity
  else if s.sigmaVal < 0 then some .param
  else none

/-- The four stages of RUN.s after its checks, in order (R261). -/
def runBody (c : Scheme) (s : State) : State := demodBody (noiseBody (synthBody (mapBody c s)))

/-- RUN.s (R261). Its noise stage draws for S × N samples. -/
def runCommand (c : Scheme) (s : State) : Host.Outcome State Fault Refusal :=
  if runCheck c s = none ∧ noiseStuck s (mapCount c s * s.nspsVal) = true then .fault .drawNeverEnds
  else finishCommand s (runCheck c s) (runBody c)

/-- RUN.ASK (R262). -/
def execRunAsk (s : State) : Host.Outcome State Fault Refusal := runCommand .ask s

/-- RUN.FSK (R263). -/
def execRunFsk (s : State) : Host.Outcome State Fault Refusal := runCommand .fsk s

/-- RUN.BPSK (R264). -/
def execRunBpsk (s : State) : Host.Outcome State Fault Refusal := runCommand .bpsk s

/-- RUN.QPSK (R265). -/
def execRunQpsk (s : State) : Host.Outcome State Fault Refusal := runCommand .qpsk s

/-- RUN.QAM16 (R266). -/
def execRunQam16 (s : State) : Host.Outcome State Fault Refusal := runCommand .qam16 s

/-- SRESET (R267, 70_reset_and_hazards.md R325): every CSR to its reset value and PEND emptied; the buffers are kept, and
DONE is not set. -/
def execSreset (s : State) : Host.Outcome State Fault Refusal :=
  .next { s with csr := Csrs.reset, pend := none }

end Sys2Proof.Machine
end

