-- ==== Sys2Proof/Machine/Dispatch.lean ====
section
/-! DEFINITION. The meaning of every instruction: one arm per constructor. -/

namespace Sys2Proof.Machine

def exec (i : Instr) (s : State) : Host.Outcome State Fault Refusal :=
  match i with
  | .nop => Sys2Proof.Machine.execNop s
  | .genbits => Sys2Proof.Machine.execGenbits s
  | .mapAsk => Sys2Proof.Machine.execMapAsk s
  | .mapFsk => Sys2Proof.Machine.execMapFsk s
  | .mapBpsk => Sys2Proof.Machine.execMapBpsk s
  | .mapQpsk => Sys2Proof.Machine.execMapQpsk s
  | .mapQam16 => Sys2Proof.Machine.execMapQam16 s
  | .synth => Sys2Proof.Machine.execSynth s
  | .noise => Sys2Proof.Machine.execNoise s
  | .demod => Sys2Proof.Machine.execDemod s
  | .runAsk => Sys2Proof.Machine.execRunAsk s
  | .runFsk => Sys2Proof.Machine.execRunFsk s
  | .runBpsk => Sys2Proof.Machine.execRunBpsk s
  | .runQpsk => Sys2Proof.Machine.execRunQpsk s
  | .runQam16 => Sys2Proof.Machine.execRunQam16 s
  | .sreset => Sys2Proof.Machine.execSreset s
  | .busRd a => Sys2Proof.Machine.execBusRd a s
  | .busWr a d => Sys2Proof.Machine.execBusWr a d s

end Sys2Proof.Machine
end

