-- ==== Sys2Proof/Decode.lean ====
section
/-! DEFINITION. The decoder of command words (30_encoding.md R111, R120) and of packed bus transactions (R124),
total on every packet, and the encoder written from the same tables (R119, R124). -/

namespace Sys2Proof

/-- Field OP, bits 3..0 (R111). -/
def opField (w : Word) : BitVec 4 := w.extractLsb' 0 4

/-- Field SCH, bits 6..4 (R111). -/
def schField (w : Word) : BitVec 3 := w.extractLsb' 4 3

/-- Field RSV, bits 31..7 (R111). -/
def rsvField (w : Word) : BitVec 25 := w.extractLsb' 7 25

/-- An operation that takes no scheme: SCH must be 0 (R115). -/
def decodePlain (i : Instr) (s : BitVec 3) : Decoded :=
  if s = 0#3 then .instr i else .illegal

/-- MAP with a scheme (R113, R116). -/
def decodeMap (s : BitVec 3) : Decoded :=
  match s.toNat with
  | 0 => .instr .mapAsk
  | 1 => .instr .mapFsk
  | 2 => .instr .mapBpsk
  | 3 => .instr .mapQpsk
  | 4 => .instr .mapQam16
  | _ => .mapBadScheme

/-- RUN with a scheme (R113, R116). -/
def decodeRun (s : BitVec 3) : Decoded :=
  match s.toNat with
  | 0 => .instr .runAsk
  | 1 => .instr .runFsk
  | 2 => .instr .runBpsk
  | 3 => .instr .runQpsk
  | 4 => .instr .runQam16
  | _ => .runBadScheme

/-- The decoding procedure `decode(w)` of R120, total on every 32-bit word. -/
def decodeCommand (w : Word) : Decoded :=
  if rsvField w ≠ 0#25 then .illegal
  else
    match (opField w).toNat with
    | 0x0 => decodePlain .nop (schField w)
    | 0x1 => decodePlain .genbits (schField w)
    | 0x2 => decodeMap (schField w)
    | 0x3 => decodePlain .synth (schField w)
    | 0x4 => decodePlain .noise (schField w)
    | 0x5 => decodePlain .demod (schField w)
    | 0x6 => decodeRun (schField w)
    | 0xF => decodePlain .sreset (schField w)
    | _ => .illegal

/-- Unpacking of a bus transaction (R124): a read ignores `pwdata`. -/
def decodeTransaction (t : BusTuple) : Instr :=
  if t.getLsbD 52 then .busWr (t.extractLsb' 32 20) (t.extractLsb' 0 32)
  else .busRd (t.extractLsb' 32 20)

/-- The decoder on either carrier. -/
def decode : Packet → Decoded
  | .command w => decodeCommand w
  | .transaction t => .instr (decodeTransaction t)

/-- The encoder: the words of R119's opcode map, and R124's tuple with `pwdata` 0 for a read. -/
def encode : Instr → Packet
  | .nop => .command 0x00000000#32
  | .genbits => .command 0x00000001#32
  | .mapAsk => .command 0x00000002#32
  | .mapFsk => .command 0x00000012#32
  | .mapBpsk => .command 0x00000022#32
  | .mapQpsk => .command 0x00000032#32
  | .mapQam16 => .command 0x00000042#32
  | .synth => .command 0x00000003#32
  | .noise => .command 0x00000004#32
  | .demod => .command 0x00000005#32
  | .runAsk => .command 0x00000006#32
  | .runFsk => .command 0x00000016#32
  | .runBpsk => .command 0x00000026#32
  | .runQpsk => .command 0x00000036#32
  | .runQam16 => .command 0x00000046#32
  | .sreset => .command 0x0000000F#32
  | .busRd a => .transaction (0#1 ++ a ++ 0#32)
  | .busWr a d => .transaction (1#1 ++ a ++ d)

/-- The packet whose bits are `w`, numbered as spec/opcode_table.json numbers them: a row of at most 32 bits is
a command word (format CMD32), a longer row is a packed bus transaction (format BUS). -/
def packetOfTable (nbits w : Nat) : Packet :=
  if nbits ≤ 32 then .command (BitVec.ofNat 32 w) else .transaction (BitVec.ofNat 53 w)

/-- The instruction the decoder reads from a table row's bits, `none` where it rejects them. -/
def decodeTableWord (nbits w : Nat) : Option Instr :=
  match decode (packetOfTable nbits w) with
  | .instr i => some i
  | _ => none

end Sys2Proof
end

