-- ==== Sys2Proof/Machine/Reset.lean ====
section
/-! DEFINITION. The hardware reset input and power (spec/70_reset_and_hazards.md R320 to R324, 60_exceptions.md R303). -/

namespace Sys2Proof.Machine

/-- How many words of each buffer, from word 0 up, a command could write. -/
structure Footprint where
  bit : Nat
  sym : Nat
  est : Nat
  sig : Nat
deriving DecidableEq, Repr

/-- The words a command writes if its checks pass, none if one fails: read off the write lists of the command rules
(41_bitsource.md R171, 42_mapper.md R181, 43_synth.md R202, 44_noise.md R221, 45_demod.md R241, 46_control.md R261). -/
def mapFootprint (c : Scheme) (s : State) : Footprint :=
  if mapCheck c s = none then ⟨0, 2 * mapCount c s, 0, 0⟩ else ⟨0, 0, 0, 0⟩

def runFootprint (c : Scheme) (s : State) : Footprint :=
  if runCheck c s = none then
    ⟨0, 2 * mapCount c s, if c = .fsk then 0 else 2 * mapCount c s, mapCount c s * s.nspsVal⟩
  else ⟨0, 0, 0, 0⟩

def footprint (i : Instr) (s : State) : Footprint :=
  match i with
  | .nop => ⟨0, 0, 0, 0⟩
  | .genbits => if genbitsCheck s = none then ⟨(s.nbitsVal + 31) / 32, 0, 0, 0⟩ else ⟨0, 0, 0, 0⟩
  | .mapAsk => mapFootprint .ask s
  | .mapFsk => mapFootprint .fsk s
  | .mapBpsk => mapFootprint .bpsk s
  | .mapQpsk => mapFootprint .qpsk s
  | .mapQam16 => mapFootprint .qam16 s
  | .synth => if synthCheck s = none then ⟨0, 0, 0, synthCount s⟩ else ⟨0, 0, 0, 0⟩
  | .noise => if noiseCheck s = none ∧ s.sigmaVal ≠ 0 then ⟨0, 0, 0, s.sigCountVal⟩ else ⟨0, 0, 0, 0⟩
  | .demod =>
    if demodCheck s = none ∧ kindOf s.csr.sigInfo ≠ 2 then ⟨0, 0, 2 * demodCount s, 0⟩ else ⟨0, 0, 0, 0⟩
  | .runAsk => runFootprint .ask s
  | .runFsk => runFootprint .fsk s
  | .runBpsk => runFootprint .bpsk s
  | .runQpsk => runFootprint .qpsk s
  | .runQam16 => runFootprint .qam16 s
  | .sreset => ⟨0, 0, 0, 0⟩
  | .busRd _ => ⟨0, 0, 0, 0⟩
  | .busWr _ _ => ⟨0, 0, 0, 0⟩

/-- The buffer words the pending command could write (R322); none while BUSY = 0. -/
def State.pendingFootprint (s : State) : Footprint :=
  if s.busy then
    match s.pend with
    | some w =>
      match decodeCommand w with
      | .instr i => footprint i s
      | _ => ⟨0, 0, 0, 0⟩
    | none => ⟨0, 0, 0, 0⟩
  else ⟨0, 0, 0, 0⟩

/-- `n` free words for the buffer words from byte address `base` up (R322; assumption log 4). -/
def lostWords (s : State) (base n : Nat) : List Word :=
  (List.range n).map fun j => Config.lostWord s.drawIx (base + 4 * j)

/-- A command in progress is abandoned: every buffer word it could write is unspecified afterwards (R322, R323). -/
def State.abandonPending (s : State) : State :=
  let f := s.pendingFootprint
  (((s.putWords Config.bitBase (lostWords s Config.bitBase f.bit)).putWords Config.symBase
    (lostWords s Config.symBase f.sym)).putWords Config.estBase
    (lostWords s Config.estBase f.est)).putWords Config.sigBase (lostWords s Config.sigBase f.sig)

/-- `presetn` is asserted (R320 to R323): every CSR takes its reset value, PEND is empty, the buffers stay but for
what an abandoned command could write. -/
def State.assertReset (s : State) : State :=
  { s.abandonPending with csr := Csrs.reset, pend := none, presetn := false, reply := none }

/-- `presetn` is released. -/
def State.releaseReset (s : State) : State := { s with presetn := true }

/-- Power is removed and comes back (60_exceptions.md R303): a hardware reset, with the buffers' contents unspecified
afresh (R322). -/
def State.cyclePower (s : State) : State :=
  { s with
    csr := Csrs.reset
    pend := none
    mem := []
    presetn := true
    reply := none
    powerOns := s.powerOns + 1 }

end Sys2Proof.Machine
end

