-- ==== Sys2Proof/Machine/Step.lean ====
section
/-! DEFINITION. One step of the machine: the next input says which agent moves (spec/00_scope.md R14). -/

namespace Sys2Proof.Machine

/-- One step of ENGINE (70_reset_and_hazards.md R335), enabled exactly when BUSY = 1: it executes PEND completely. -/
def engineStep (s : State) : Host.Outcome State Fault Refusal :=
  if s.busy then
    match s.pend with
    | none => .fault .engineWithoutCommand
    | some w =>
      match decode (.command w) with
      | .instr i => exec i s
      | .illegal => .next (s.raiseError .illegalCmd)
      | .mapBadScheme => .next (s.raiseError .scheme)
      | .runBadScheme => .next (s.raiseError .scheme)
  else .next s

/-- One step of HOST: one transaction, which the slave does not answer while `presetn` is asserted (R320). -/
def hostStep (t : BusTuple) (s : State) : Host.Outcome State Fault Refusal :=
  if s.presetn then
    match decode (.transaction t) with
    | .instr i => exec i s
    | _ => .next s
  else .next { s with reply := none }

/-- One step: the next input decides who moves. When no input is left, ENGINE moves if it is enabled, and the machine
idles if it is not. -/
def step (s : State) : Host.Outcome State Fault Refusal :=
  match s.turns with
  | [] => engineStep s.beginStep
  | .engine :: _ => engineStep s.beginStep
  | .bus t :: _ => hostStep t s.beginStep
  | .resetAssert :: _ => .next s.beginStep.assertReset
  | .resetRelease :: _ => .next s.beginStep.releaseReset
  | .powerCycle :: _ => .next s.beginStep.cyclePower

/-- The state whose very next step runs the instruction with these bits, numbered as spec/opcode_table.json numbers
them: a command word is put in PEND as its acceptance puts it there (46_control.md R270), a bus transaction is the
host's next one. Assumption log 7. -/
def State.withFetchWord (s : State) (nbits w : Nat) : State :=
  match packetOfTable nbits w with
  | .command c => s.loadCommand c
  | .transaction t => s.loadTransaction t

end Sys2Proof.Machine
end

