-- ==== Sys2Proof/Safety.lean ====
section
/-! DEFINITION. What counts as a good state and a good run, in the terms the claims use. -/

namespace Sys2Proof.Machine

/-- The last transaction was answered ERR: the host program is at fault (spec/20_memory.md R86, 00_scope.md R16). -/
def State.hostFault (s : State) : Bool :=
  match s.reply with
  | some (.readData .err _) => true
  | some (.writeAck .err) => true
  | _ => false

/-- No command and no write of the host program has been dropped since the flags were last cleared
(70_reset_and_hazards.md R340). -/
def State.nothingDropped (s : State) : Bool := !s.cmdOvr && !s.wrBusy

/-- The invariant of every state that a run from reset reaches. -/
structure Inv (s : State) : Prop where
  /-- The memory is in its canonical form and lists buffer bytes only (20_memory.md R81). -/
  memRising : Memory.wf s.mem = true
  memInBuffers : Memory.inBuffers s.mem = true
  /-- PEND holds a word exactly while BUSY = 1, and LAST_CMD holds the same word (10_state.md R52). -/
  busyHasCommand : s.busy = s.pend.isSome
  pendIsLastCmd : ∀ w, s.pend = some w → s.csr.lastCmd = w
  /-- Acceptance clears DONE, so DONE = 0 while BUSY = 1 (70_reset_and_hazards.md R333). -/
  busyNotDone : s.busy = true → s.done = false
  /-- Reserved bits read 0 (10_state.md R24, R25, R27, R42). -/
  statusReserved : s.csr.status &&& ~~~0x0000007F#32 = 0#32
  ctrlReserved : s.csr.ctrl &&& ~~~0x00000001#32 = 0#32
  irqEnReserved : s.csr.irqEn &&& ~~~0x00000007#32 = 0#32
  sigInfoReserved : s.csr.sigInfo &&& ~~~0x00000173#32 = 0#32
  /-- The generator states are never 0 (40_kernels.md R151). -/
  brngNonzero : s.csr.brng ≠ 0#32
  nrngNonzero : s.csr.nrng ≠ 0#32
  /-- SYM_COUNT and SYM_INFO hold what some MAP or RUN wrote, or 0 (10_state.md R39, R40). -/
  symCountRange : s.csr.symCount.toNat ≤ Config.bitCap
  symInfoLegal : s.csr.symInfo ∈ [0x00#32, 0x01#32, 0x12#32, 0x21#32, 0x31#32, 0x41#32]
  symNone : s.csr.symInfo = 0#32 ↔ s.csr.symCount = 0#32
  /-- EST_COUNT and EST_INFO hold what some DEMOD or RUN wrote, or 0 (10_state.md R43, R44). -/
  estCountRange : s.csr.estCount.toNat ≤ Config.bitCap
  estInfoReserved : s.csr.estInfo &&& ~~~0x00000173#32 = 0#32
  estKindLegal : kindOf s.csr.estInfo ≠ 3
  estEmpty : kindOf s.csr.estInfo ≠ 1 → s.csr.estCount = 0#32 ∧ s.csr.estInfo.getLsbD 8 = false
  /-- ERR = 1 exactly while an error is recorded (10_state.md R25, R29, R30; 60_exceptions.md R281). -/
  errRecorded : s.err = true ↔ s.csr.errCode ≠ 0#32
  errCodeRange : s.csr.errCode.toNat ≤ 6
  noErrNoCmd : s.err = false → s.csr.errCmd = 0#32
  /-- Nothing is pending while the reset input is asserted (70_reset_and_hazards.md R320). -/
  resetIdle : s.presetn = false → s.busy = false

end Sys2Proof.Machine
end

