-- ==== Sys2Proof/WellFormed.lean ====
section
/-! DEFINITION. Which packets are well-formed: the legality conditions of 30_encoding.md R115 and R116, written
on the word's number and not through the decoder, so that the two can be held against each other. Every term
of `Instr` is well-formed as it stands: its operand widths are in its types. -/

namespace Sys2Proof

/-- RSV, bits 31..7, is 0 (R111). -/
def rsvClear (w : Word) : Bool := w.toNat / 128 == 0

/-- OP, bits 3..0, is none of the reserved values 0x7 to 0xE (R112). -/
def opDefined (w : Word) : Bool := w.toNat % 16 ≤ 6 || w.toNat % 16 == 15

/-- SCH, bits 6..4, is 0 unless OP is MAP (2) or RUN (6) (R115). -/
def schemeAllowed (w : Word) : Bool :=
  w.toNat % 16 == 2 || w.toNat % 16 == 6 || w.toNat / 16 % 8 == 0

/-- SCH names one of the five schemes (R113, R116). -/
def schemeKnown (w : Word) : Bool := w.toNat / 16 % 8 ≤ 4

/-- A command word that R115 does not call illegal and R116 does not call an invalid scheme; every bus tuple
is a transaction (R124). -/
def Packet.wf : Packet → Bool
  | .command w => rsvClear w && opDefined w && schemeAllowed w && schemeKnown w
  | .transaction _ => true

end Sys2Proof
end

