-- ==== Sys2Proof/Certificates/Slice0/Obligations.lean ====
section
/-! DEFINITION. The statements for the provers. The helper predicates come first: what is kept, how a command ends, and
exact values written out from the rules rather than taken from the meanings. -/

namespace Sys2Proof.Claims

open Sys2Proof.Machine

/-! ## What is kept -/

/-- Every CSR but the listed ones reads as before. -/
def CsrsKept (l : List Csr) (s t : State) : Prop := ∀ c, c ∉ l → t.csrValue c = s.csrValue c

/-- Every byte of memory outside `P` reads as before. -/
def BytesKept (P : Nat → Prop) (s t : State) : Prop := ∀ a, ¬ P a → t.byteAt a = s.byteAt a

/-- No address. -/
def Nowhere (_ : Nat) : Prop := False

/-- The byte addresses of `n` consecutive words from `base` up. -/
def InWords (base n a : Nat) : Prop := base ≤ a ∧ a < base + 4 * n

/-- The reset input, the bus answer and the model's own fields are as before. -/
def InputsKept (s t : State) : Prop :=
  t.presetn = s.presetn ∧ t.reply = s.reply ∧ t.turns = s.turns ∧ t.drawIx = s.drawIx ∧
    t.powerOns = s.powerOns

/-! ## How a command ends -/

/-- Success (70_reset_and_hazards.md R335): PEND empty, BUSY = 0, DONE = 1, SAT set if `sats`, every other STATUS bit
as before. -/
def Succeeded (sats : Prop) (s t : State) : Prop :=
  t.pend = none ∧ t.busy = false ∧ t.done = true ∧ (t.sat = true ↔ s.sat = true ∨ sats) ∧
    ∀ i, i < 32 → i ∉ [0, 1, 3] → t.csr.status.getLsbD i = s.csr.status.getLsbD i

/-- Error entry (60_exceptions.md R286, R289): PEND empty, BUSY = 0, DONE = 1, ERR = 1; the code and PEND's word are
recorded if ERR was 0, else ERR_MULTI is set and the record kept; nothing else changes. -/
def ErrorTaken (code : Nat) (s t : State) : Prop :=
  t.pend = none ∧ t.busy = false ∧ t.done = true ∧ t.err = true ∧
    (s.err = false → t.csr.errCode.toNat = code ∧ (∀ w, s.pend = some w → t.csr.errCmd = w) ∧
      t.errMulti = s.errMulti) ∧
    (s.err = true → t.csr.errCode = s.csr.errCode ∧ t.csr.errCmd = s.csr.errCmd ∧ t.errMulti = true) ∧
    (∀ i, i < 32 → i ∉ [0, 1, 2, 6] → t.csr.status.getLsbD i = s.csr.status.getLsbD i) ∧
    CsrsKept [.status, .errCode, .errCmd] s t ∧ BytesKept Nowhere s t ∧ InputsKept s t

/-- The command ends with this error. -/
def EndsInError (i : Instr) (code : Nat) (s : State) : Prop :=
  ∃ t, exec i s = .next t ∧ ErrorTaken code s t

/-! ## Exact values -/

/-- The word a result is stored as (40_kernels.md R140): the value clamped to the s32 range. -/
def clampWord (x : Int) : Word := BitVec.ofInt 32 (max (-2147483648) (min 2147483647 x))

/-- The value does not fit the s32 range. -/
def OutOfRange (x : Int) : Prop := 2147483647 < x ∨ x < -2147483648

/-- -A in a word, saturated: -(-2^31) gives 2^31 - 1. -/
def satNeg (a : Word) : Word := if a = 0x80000000#32 then 0x7FFFFFFF#32 else -a

/-- The table index of sample m under a frequency control word (R145, R146): the top ten bits of m × F modulo 2^32. -/
def ncoIndex (m : Nat) (f : Word) : Nat := m * f.toNat % 4294967296 / 4194304

/-- The exact IQ sample before saturation (43_synth.md R203). -/
def iqExact (s : State) (m : Nat) : Int :=
  let k := m / s.csr.nsps.toNat
  ((s.symWord (2 * k)).toInt * cosLut (ncoIndex m s.csr.carFcw) -
    (s.symWord (2 * k + 1)).toInt * sinLut (ncoIndex m s.csr.carFcw)) / 65536

/-- The frequency control word of sample m's tone (40_kernels.md R148). -/
def toneWord (s : State) (m : Nat) : Word :=
  if (s.symWord (2 * (m / s.csr.nsps.toNat))).getLsbD 0 then s.csr.carFcw + s.csr.devFcw
  else s.csr.carFcw - s.csr.devFcw

/-- The exact TONE sample before saturation (43_synth.md R204). -/
def toneExact (s : State) (m : Nat) : Int :=
  s.csr.amp.toInt * cosLut (ncoIndex m (toneWord s m)) / 65536

/-- The exact noisy sample before saturation (44_noise.md R221, R222; 40_kernels.md R154): the words for u and v are
the (2m+1)-th and the (2m+2)-th generator states after NRNG. -/
def noisyExact (s : State) (m : Nat) : Int :=
  let u := rngAfter (2 * m + 1) s.csr.nrng
  let v := rngAfter (2 * m + 2) s.csr.nrng
  (s.sigWord m).toInt + s.csr.sigma.toInt * (rad u : Int) * cosLut (v.toNat / 4194304) / 4294967296

/-- The gain 1 + DGAIN (45_demod.md R244). -/
def gain (s : State) : Int := if s.csr.ctrl.getLsbD 0 then 2 else 1

/-- The exact estimates of window k before saturation (45_demod.md R242). -/
def estIExact (s : State) (k : Nat) : Int :=
  let n := s.csr.nsps.toNat
  Int.fdiv (gain s * ∑ j ∈ Finset.range n,
    (s.sigWord (k * n + j)).toInt * cosLut (ncoIndex (k * n + j) s.csr.carFcw)) (n * 65536)

def estQExact (s : State) (k : Nat) : Int :=
  let n := s.csr.nsps.toNat
  Int.fdiv (gain s * ∑ j ∈ Finset.range n,
    -((s.sigWord (k * n + j)).toInt * sinLut (ncoIndex (k * n + j) s.csr.carFcw))) (n * 65536)

/-! ## Shapes shared by several instructions -/

/-- MAP.s as 42_mapper.md R181 gives it, with its command word: with NBITS a positive multiple of `b` and at most
4096, entry k of SYM_MEM is `entry s k`, SYM_COUNT and SYM_INFO are set, SAT is set if `sats s`, and nothing else
changes; otherwise E_CAPACITY (5) or E_BITLEN (3). -/
def MapsSymbols (i : Instr) (word : Word) (b : Nat) (info : Word) (entry : State → Nat → Word × Word)
    (sats : State → Prop) : Prop :=
  decode (.command word) = .instr i ∧ ∀ s : State,
    (b ≤ s.csr.nbits.toNat → s.csr.nbits.toNat % b = 0 → s.csr.nbits.toNat ≤ 4096 →
      ∃ t, exec i s = .next t ∧
        (∀ k, k < s.csr.nbits.toNat / b →
          t.symWord (2 * k) = (entry s k).1 ∧ t.symWord (2 * k + 1) = (entry s k).2) ∧
        t.csr.symCount.toNat = s.csr.nbits.toNat / b ∧ t.csr.symInfo = info ∧
        Succeeded (sats s) s t ∧ CsrsKept [.status, .symCount, .symInfo] s t ∧
        BytesKept (InWords Config.symBase (2 * (s.csr.nbits.toNat / b))) s t ∧ InputsKept s t) ∧
    (4096 < s.csr.nbits.toNat → EndsInError i 5 s) ∧
    (s.csr.nbits.toNat ≤ 4096 → (s.csr.nbits.toNat < b ∨ s.csr.nbits.toNat % b ≠ 0) → EndsInError i 3 s)

/-- SYNTH as 43_synth.md R202 gives it, with `exact` the sample before saturation. -/
def SynthesisesFrom (exact : State → Nat → Int) (s : State) : Prop :=
  ∃ t, exec .synth s = .next t ∧
    (∀ m, m < s.csr.symCount.toNat * s.csr.nsps.toNat → t.sigWord m = clampWord (exact s m)) ∧
    t.csr.sigCount.toNat = s.csr.symCount.toNat * s.csr.nsps.toNat ∧
    t.csr.sigInfo = s.csr.symInfo &&& 0x73#32 ∧
    Succeeded (∃ m, m < s.csr.symCount.toNat * s.csr.nsps.toNat ∧ OutOfRange (exact s m)) s t ∧
    CsrsKept [.status, .sigCount, .sigInfo] s t ∧
    BytesKept (InWords Config.sigBase (s.csr.symCount.toNat * s.csr.nsps.toNat)) s t ∧ InputsKept s t

/-- The MAP and the RUN command of a scheme. -/
def mapOf : Scheme → Instr
  | .ask => .mapAsk
  | .fsk => .mapFsk
  | .bpsk => .mapBpsk
  | .qpsk => .mapQpsk
  | .qam16 => .mapQam16

def runOf : Scheme → Instr
  | .ask => .runAsk
  | .fsk => .runFsk
  | .bpsk => .runBpsk
  | .qpsk => .runQpsk
  | .qam16 => .runQam16

/-- Bits per symbol and SYM_INFO of a scheme (30_encoding.md R113). -/
def bitsPer : Scheme → Nat
  | .ask => 1
  | .fsk => 1
  | .bpsk => 1
  | .qpsk => 2
  | .qam16 => 4

def infoOf : Scheme → Word
  | .ask => 0x01#32
  | .fsk => 0x12#32
  | .bpsk => 0x21#32
  | .qpsk => 0x31#32
  | .qam16 => 0x41#32

/-- Every precondition of RUN.s holds (46_control.md R261), and the noise generator's state is not 0 (40_kernels.md
R151). -/
def RunReady (c : Scheme) (s : State) : Prop :=
  bitsPer c ≤ s.csr.nbits.toNat ∧ s.csr.nbits.toNat % bitsPer c = 0 ∧ s.csr.nbits.toNat ≤ 4096 ∧
    1 ≤ s.csr.nsps.toNat ∧ s.csr.nbits.toNat / bitsPer c * s.csr.nsps.toNat ≤ 65536 ∧
    0 ≤ s.csr.sigma.toInt ∧ s.csr.nrng ≠ 0#32

/-- The addresses of SYM_MEM and EST_MEM, and the unmapped ones (20_memory.md R81). -/
def Unmapped (n : Nat) : Prop :=
  (0x100 ≤ n ∧ n < 0x1000) ∨ (0x1200 ≤ n ∧ n < 0x10000) ∨ (0x20000 ≤ n ∧ n < 0x40000) ∨ 0x80000 ≤ n

def HostReadOnlyBuffer (n : Nat) : Prop := 0x10000 ≤ n ∧ n < 0x20000

def HostWritableBuffer (n : Nat) : Prop := (0x1000 ≤ n ∧ n < 0x1200) ∨ (0x40000 ≤ n ∧ n < 0x80000)

/-- ENGINE has the next step: it is its turn, or no input is left. -/
def EngineNext (s : State) : Prop := s.turns = [] ∨ s.turns.head? = some .engine

end Sys2Proof.Claims

open Sys2Proof Sys2Proof.Machine Sys2Proof.Claims

/-! ## Encoding -/

/-- Every instruction is decoded from its own words; a command word determines its encoding; a write's tuple is the
encoding of what it decodes to; two read tuples with the same address decode alike (R119, R124). -/
def Obligations.DecodeEncodeAgree : Prop :=
  (∀ i, decode (encode i) = .instr i) ∧
  (∀ w i, decodeCommand w = .instr i → encode i = .command w) ∧
  (∀ t : BusTuple, t.getLsbD 52 = true → encode (decodeTransaction t) = .transaction t) ∧
  (∀ t u : BusTuple, t.getLsbD 52 = false → u.getLsbD 52 = false →
    t.extractLsb' 32 20 = u.extractLsb' 32 20 → decodeTransaction t = decodeTransaction u)

/-- The decoding procedure of R120, on the word's number: RSV is w / 128, OP is w mod 16, SCH is w / 16 mod 8; and what its
three rejections complete with. -/
def Obligations.DecodingProcedureIsTotal : Prop :=
  ∀ w : Word,
    (w.toNat / 128 ≠ 0 → decodeCommand w = .illegal) ∧
    (w.toNat / 128 = 0 → w.toNat / 16 % 8 ≠ 0 → w.toNat % 16 ≠ 2 → w.toNat % 16 ≠ 6 →
      decodeCommand w = .illegal) ∧
    (7 ≤ w.toNat % 16 → w.toNat % 16 ≤ 14 → decodeCommand w = .illegal) ∧
    (w.toNat / 16 = 0 →
      (w.toNat % 16 = 0 → decodeCommand w = .instr .nop) ∧
      (w.toNat % 16 = 1 → decodeCommand w = .instr .genbits) ∧
      (w.toNat % 16 = 3 → decodeCommand w = .instr .synth) ∧
      (w.toNat % 16 = 4 → decodeCommand w = .instr .noise) ∧
      (w.toNat % 16 = 5 → decodeCommand w = .instr .demod) ∧
      (w.toNat % 16 = 15 → decodeCommand w = .instr .sreset)) ∧
    (w.toNat / 128 = 0 → w.toNat % 16 = 2 →
      (w.toNat / 16 = 0 → decodeCommand w = .instr .mapAsk) ∧
      (w.toNat / 16 = 1 → decodeCommand w = .instr .mapFsk) ∧
      (w.toNat / 16 = 2 → decodeCommand w = .instr .mapBpsk) ∧
      (w.toNat / 16 = 3 → decodeCommand w = .instr .mapQpsk) ∧
      (w.toNat / 16 = 4 → decodeCommand w = .instr .mapQam16) ∧
      (5 ≤ w.toNat / 16 → decodeCommand w = .mapBadScheme)) ∧
    (w.toNat / 128 = 0 → w.toNat % 16 = 6 →
      (w.toNat / 16 = 0 → decodeCommand w = .instr .runAsk) ∧
      (w.toNat / 16 = 1 → decodeCommand w = .instr .runFsk) ∧
      (w.toNat / 16 = 2 → decodeCommand w = .instr .runBpsk) ∧
      (w.toNat / 16 = 3 → decodeCommand w = .instr .runQpsk) ∧
      (w.toNat / 16 = 4 → decodeCommand w = .instr .runQam16) ∧
      (5 ≤ w.toNat / 16 → decodeCommand w = .runBadScheme)) ∧
    (∀ s : State, s.busy = true → s.pend = some w →
      (decodeCommand w = .illegal → engineStep s = .next (s.raiseError .illegalCmd)) ∧
      (decodeCommand w = .mapBadScheme ∨ decodeCommand w = .runBadScheme →
        engineStep s = .next (s.raiseError .scheme)))

/-- The decoder gives an instruction exactly on the well-formed command words (R115, R116, R119). -/
def Obligations.WellFormedWordsAreTheDecodedOnes : Prop :=
  ∀ w : Word, (Packet.command w).wf = true ↔ ∃ i, decodeCommand w = .instr i

/-- A few words written out from R119 and R124. -/
def Obligations.OpcodeWordsDecode : Prop :=
  decode (.command 0x00000001#32) = .instr .genbits ∧
  decode (.command 0x00000032#32) = .instr .mapQpsk ∧
  decode (.command 0x00000003#32) = .instr .synth ∧
  decode (.command 0x00000004#32) = .instr .noise ∧
  decode (.command 0x00000005#32) = .instr .demod ∧
  decode (.command 0x00000046#32) = .instr .runQam16 ∧
  decode (.command 0x0000000F#32) = .instr .sreset ∧
  decode (.transaction 0x0000140000002A#53) = .instr (.busRd 0x00014#20) ∧
  decode (.transaction 0x1000140000002A#53) = .instr (.busWr 0x00014#20 0x0000002A#32)

/-! ## The step -/

/-- A step runs the decoded instruction: the engine's on PEND's word while BUSY = 1, the host's on the next transaction
while `presetn` is high; the step itself only takes the input off the list and counts itself. With nothing pending
the engine is not enabled. -/
def Obligations.StepRunsTheDecodedInstruction : Prop :=
  (∀ s w i, EngineNext s → s.busy = true → s.pend = some w → decode (.command w) = .instr i →
    step s = exec i { s with turns := s.turns.tail, drawIx := s.drawIx + 1 }) ∧
  (∀ s t rest i, s.turns = .bus t :: rest → s.presetn = true → decode (.transaction t) = .instr i →
    step s = exec i { s with turns := rest, drawIx := s.drawIx + 1 }) ∧
  (∀ s, EngineNext s → s.busy = false →
    step s = .next { s with turns := s.turns.tail, drawIx := s.drawIx + 1 })

/-- An illegal word in PEND ends in E_ILLEGAL_CMD (1), MAP or RUN with SCH 5, 6 or 7 in E_SCHEME (2). -/
def Obligations.RejectedWordsEndInTheirError : Prop :=
  ∀ s w, EngineNext s → s.busy = true → s.pend = some w →
    (w.toNat / 128 ≠ 0 ∨ (7 ≤ w.toNat % 16 ∧ w.toNat % 16 ≤ 14) ∨
        (w.toNat % 16 ≠ 2 ∧ w.toNat % 16 ≠ 6 ∧ w.toNat / 16 % 8 ≠ 0) →
      ∃ t, step s = .next t ∧
        ErrorTaken 1 { s with turns := s.turns.tail, drawIx := s.drawIx + 1 } t) ∧
    (w.toNat / 128 = 0 → (w.toNat % 16 = 2 ∨ w.toNat % 16 = 6) → 5 ≤ w.toNat / 16 →
      ∃ t, step s = .next t ∧
        ErrorTaken 2 { s with turns := s.turns.tail, drawIx := s.drawIx + 1 } t)

/-! ## Errors -/

/-- Error entry, for every error and every state with a command pending. -/
def Obligations.ErrorEntryRecordsTheFirstError : Prop :=
  ∀ s w, s.pend = some w →
    ErrorTaken 1 s (s.raiseError .illegalCmd) ∧ ErrorTaken 2 s (s.raiseError .scheme) ∧
    ErrorTaken 3 s (s.raiseError .bitlen) ∧ ErrorTaken 4 s (s.raiseError .param) ∧
    ErrorTaken 5 s (s.raiseError .capacity) ∧ ErrorTaken 6 s (s.raiseError .nodata)

/-- Where each command ends in which error after decoding: the first failing check, in the order of R290. -/
def Obligations.ChecksFailInOrder : Prop :=
  ∀ s : State,
    -- GENBITS
    (s.csr.nbits.toNat = 0 → EndsInError .genbits 4 s) ∧
    (4096 < s.csr.nbits.toNat → EndsInError .genbits 5 s) ∧
    -- MAP.s
    (∀ c : Scheme,
      (4096 < s.csr.nbits.toNat → EndsInError (mapOf c) 5 s) ∧
      (s.csr.nbits.toNat ≤ 4096 → (s.csr.nbits.toNat < bitsPer c ∨ s.csr.nbits.toNat % bitsPer c ≠ 0) →
        EndsInError (mapOf c) 3 s)) ∧
    -- SYNTH
    (s.csr.symInfo.toNat % 4 = 0 → EndsInError .synth 6 s) ∧
    (s.csr.symInfo.toNat % 4 ≠ 0 → s.csr.nsps.toNat = 0 → EndsInError .synth 4 s) ∧
    (s.csr.symInfo.toNat % 4 ≠ 0 → s.csr.nsps.toNat ≠ 0 →
      65536 < s.csr.symCount.toNat * s.csr.nsps.toNat → EndsInError .synth 5 s) ∧
    -- NOISE
    (s.csr.sigma.toInt < 0 → EndsInError .noise 4 s) ∧
    (0 ≤ s.csr.sigma.toInt → (s.csr.sigInfo.toNat % 4 = 0 ∨ s.csr.sigInfo.toNat % 4 = 3) →
      EndsInError .noise 6 s) ∧
    (0 ≤ s.csr.sigma.toInt → (s.csr.sigInfo.toNat % 4 = 1 ∨ s.csr.sigInfo.toNat % 4 = 2) →
      65536 < s.csr.sigCount.toNat → EndsInError .noise 5 s) ∧
    -- DEMOD
    ((s.csr.sigInfo.toNat % 4 = 0 ∨ s.csr.sigInfo.toNat % 4 = 3) → EndsInError .demod 6 s) ∧
    (s.csr.sigInfo.toNat % 4 = 1 → 65536 < s.csr.sigCount.toNat → EndsInError .demod 5 s) ∧
    (s.csr.sigInfo.toNat % 4 = 1 → s.csr.sigCount.toNat ≤ 65536 → s.csr.nsps.toNat = 0 →
      EndsInError .demod 4 s) ∧
    (s.csr.sigInfo.toNat % 4 = 1 → s.csr.sigCount.toNat ≤ 65536 → s.csr.nsps.toNat ≠ 0 →
      s.csr.sigCount.toNat % s.csr.nsps.toNat ≠ 0 → EndsInError .demod 3 s) ∧
    (s.csr.sigInfo.toNat % 4 = 1 → s.csr.sigCount.toNat ≤ 65536 → s.csr.nsps.toNat ≠ 0 →
      s.csr.sigCount.toNat % s.csr.nsps.toNat = 0 →
      4096 < s.csr.sigCount.toNat / s.csr.nsps.toNat → EndsInError .demod 5 s) ∧
    -- RUN.s
    (∀ c : Scheme,
      (4096 < s.csr.nbits.toNat → EndsInError (runOf c) 5 s) ∧
      (s.csr.nbits.toNat ≤ 4096 → (s.csr.nbits.toNat < bitsPer c ∨ s.csr.nbits.toNat % bitsPer c ≠ 0) →
        EndsInError (runOf c) 3 s) ∧
      (s.csr.nbits.toNat ≤ 4096 → bitsPer c ≤ s.csr.nbits.toNat → s.csr.nbits.toNat % bitsPer c = 0 →
        (s.csr.nsps.toNat = 0 → EndsInError (runOf c) 4 s) ∧
        (s.csr.nsps.toNat ≠ 0 → 65536 < s.csr.nbits.toNat / bitsPer c * s.csr.nsps.toNat →
          EndsInError (runOf c) 5 s) ∧
        (s.csr.nsps.toNat ≠ 0 → s.csr.nbits.toNat / bitsPer c * s.csr.nsps.toNat ≤ 65536 →
          s.csr.sigma.toInt < 0 → EndsInError (runOf c) 4 s)))

/-! ## The commands -/

/-- NOP is the word 0, every other word with OP = 0 is illegal, and NOP completes and changes nothing but BUSY, DONE and
PEND (R260). -/
def Obligations.NopOnlyCompletes : Prop :=
  decode (.command 0x00000000#32) = .instr .nop ∧
  (∀ w : Word, w.toNat % 16 = 0 → w ≠ 0#32 → decodeCommand w = .illegal) ∧
  ∀ s, ∃ t, exec .nop s = .next t ∧ Succeeded False s t ∧ CsrsKept [.status] s t ∧
    BytesKept Nowhere s t ∧ InputsKept s t

/-- GENBITS (R171). -/
def Obligations.GenbitsFillsTheBitStream : Prop :=
  decode (.command 0x00000001#32) = .instr .genbits ∧ ∀ s : State,
    (1 ≤ s.csr.nbits.toNat → s.csr.nbits.toNat ≤ 4096 →
      ∃ t, exec .genbits s = .next t ∧
        (∀ i, i < s.csr.nbits.toNat → t.streamBit i = (rngAfter (i + 1) s.csr.brng).getLsbD 31) ∧
        (∀ i, s.csr.nbits.toNat ≤ i → i < 4096 → t.streamBit i = s.streamBit i) ∧
        t.csr.brng = rngAfter s.csr.nbits.toNat s.csr.brng ∧
        Succeeded False s t ∧ CsrsKept [.status, .brng] s t ∧
        BytesKept (InWords Config.bitBase ((s.csr.nbits.toNat + 31) / 32)) s t ∧ InputsKept s t) ∧
    (s.csr.nbits.toNat = 0 → EndsInError .genbits 4 s) ∧
    (4096 < s.csr.nbits.toNat → EndsInError .genbits 5 s)

/-- MAP.ASK (R181, R182). -/
def Obligations.MapAskKeysTheAmplitude : Prop :=
  MapsSymbols .mapAsk 0x00000002#32 1 0x01#32 (fun s k => (if s.streamBit k then s.csr.amp else 0#32, 0#32))
    (fun _ => False)

/-- MAP.FSK (R181, R183). -/
def Obligations.MapFskStoresTheTone : Prop :=
  MapsSymbols .mapFsk 0x00000012#32 1 0x12#32 (fun s k => (if s.streamBit k then 1#32 else 0#32, 0#32))
    (fun _ => False)

/-- MAP.BPSK (R181, R184): SAT exactly when a 0 bit meets AMP = -2^31. -/
def Obligations.MapBpskKeysThePhase : Prop :=
  MapsSymbols .mapBpsk 0x00000022#32 1 0x21#32
    (fun s k => (if s.streamBit k then s.csr.amp else satNeg s.csr.amp, 0#32))
    (fun s => s.csr.amp = 0x80000000#32 ∧ ∃ k, k < s.csr.nbits.toNat ∧ s.streamBit k = false)

/-- MAP.QPSK (R181, R185): the sign of I is minus when g1 = 1, the sign of Q when g0 = 1. -/
def Obligations.MapQpskIsGrayCoded : Prop :=
  MapsSymbols .mapQpsk 0x00000032#32 2 0x31#32
    (fun s k => (if s.streamBit (2 * k + 1) then satNeg s.csr.amp else s.csr.amp,
      if s.streamBit (2 * k) then satNeg s.csr.amp else s.csr.amp))
    (fun s => s.csr.amp = 0x80000000#32 ∧ ∃ i, i < s.csr.nbits.toNat ∧ s.streamBit i = true)

/-- MAP.QAM16 (R181, R186): SAT is never set. -/
def Obligations.MapQam16ScalesTheAxes : Prop :=
  MapsSymbols .mapQam16 0x00000042#32 4 0x41#32
    (fun s k =>
      let ax : Bool → Bool → Int := fun x y => if x then (if y then -1 else -3) else (if y then 1 else 3)
      (BitVec.ofInt 32 (ax (s.streamBit (4 * k)) (s.streamBit (4 * k + 1)) * 20724 * s.csr.amp.toInt / 65536),
        BitVec.ofInt 32
          (ax (s.streamBit (4 * k + 2)) (s.streamBit (4 * k + 3)) * 20724 * s.csr.amp.toInt / 65536)))
    (fun _ => False)

/-- SYNTH of an IQ-kind symbol buffer (R202, R203). -/
def Obligations.SynthOfIqSymbols : Prop :=
  ∀ s : State, s.csr.symInfo.toNat % 4 = 1 → 1 ≤ s.csr.nsps.toNat →
    s.csr.symCount.toNat * s.csr.nsps.toNat ≤ 65536 → SynthesisesFrom iqExact s

/-- SYNTH of a TONE-kind symbol buffer (R202, R204), and when a tone sample can saturate (R204). -/
def Obligations.SynthOfToneSymbols : Prop :=
  (∀ s : State, s.csr.symInfo.toNat % 4 = 2 → 1 ≤ s.csr.nsps.toNat →
    s.csr.symCount.toNat * s.csr.nsps.toNat ≤ 65536 → SynthesisesFrom toneExact s) ∧
  ∀ (s : State) (m : Nat), OutOfRange (toneExact s m) →
    s.csr.amp = 0x80000000#32 ∧ cosLut (ncoIndex m (toneWord s m)) = -65536

/-- NOISE with sigma > 0 (R221, R222). -/
def Obligations.NoiseAddsOneDrawPerSample : Prop :=
  ∀ s : State, 0 < s.csr.sigma.toInt → (s.csr.sigInfo.toNat % 4 = 1 ∨ s.csr.sigInfo.toNat % 4 = 2) →
    s.csr.sigCount.toNat ≤ 65536 → s.csr.nrng ≠ 0#32 →
    ∃ t, exec .noise s = .next t ∧
      (∀ m, m < s.csr.sigCount.toNat → t.sigWord m = clampWord (noisyExact s m)) ∧
      t.csr.nrng = rngAfter (2 * s.csr.sigCount.toNat) s.csr.nrng ∧
      t.csr.sigInfo = s.csr.sigInfo ||| 0x100#32 ∧
      Succeeded (∃ m, m < s.csr.sigCount.toNat ∧ OutOfRange (noisyExact s m)) s t ∧
      CsrsKept [.status, .nrng, .sigInfo] s t ∧
      BytesKept (InWords Config.sigBase s.csr.sigCount.toNat) s t ∧ InputsKept s t

/-- NOISE with sigma = 0 is a successful no-op (R221). -/
def Obligations.NoiseWithZeroSigmaChangesNothing : Prop :=
  ∀ s : State, s.csr.sigma = 0#32 → (s.csr.sigInfo.toNat % 4 = 1 ∨ s.csr.sigInfo.toNat % 4 = 2) →
    s.csr.sigCount.toNat ≤ 65536 →
    ∃ t, exec .noise s = .next t ∧ Succeeded False s t ∧ CsrsKept [.status] s t ∧
      BytesKept Nowhere s t ∧ InputsKept s t

/-- DEMOD of an IQ-kind signal (R241, R242, R244). -/
def Obligations.DemodCorrelatesEachWindow : Prop :=
  ∀ s : State, s.csr.sigInfo.toNat % 4 = 1 → s.csr.sigCount.toNat ≤ 65536 → 1 ≤ s.csr.nsps.toNat →
    s.csr.sigCount.toNat % s.csr.nsps.toNat = 0 → s.csr.sigCount.toNat / s.csr.nsps.toNat ≤ 4096 →
    ∃ t, exec .demod s = .next t ∧
      (∀ k, k < s.csr.sigCount.toNat / s.csr.nsps.toNat →
        t.estWord (2 * k) = clampWord (estIExact s k) ∧ t.estWord (2 * k + 1) = clampWord (estQExact s k)) ∧
      t.csr.estCount.toNat = s.csr.sigCount.toNat / s.csr.nsps.toNat ∧
      t.csr.estInfo = 1#32 ||| (s.csr.sigInfo &&& 0x70#32) ||| ((s.csr.ctrl &&& 1#32) <<< 8) ∧
      Succeeded (∃ k, k < s.csr.sigCount.toNat / s.csr.nsps.toNat ∧
        (OutOfRange (estIExact s k) ∨ OutOfRange (estQExact s k))) s t ∧
      CsrsKept [.status, .estCount, .estInfo] s t ∧
      BytesKept (InWords Config.estBase (2 * (s.csr.sigCount.toNat / s.csr.nsps.toNat))) s t ∧ InputsKept s t

/-- DEMOD of an FSK signal gives the EMPTY result, whatever the other registers hold (R243). -/
def Obligations.DemodOfFskIsEmpty : Prop :=
  ∀ s : State, s.csr.sigInfo.toNat % 4 = 2 →
    ∃ t, exec .demod s = .next t ∧ t.csr.estCount = 0#32 ∧
      t.csr.estInfo = 2#32 ||| (s.csr.sigInfo &&& 0x70#32) ∧
      Succeeded False s t ∧ CsrsKept [.status, .estCount, .estInfo] s t ∧
      BytesKept Nowhere s t ∧ InputsKept s t

/-- RUN.s ends in the state that MAP.s, SYNTH, NOISE and DEMOD end in when issued one after another, and none of the
four fails (R261). -/
def Obligations.RunEqualsItsFourStages : Prop :=
  ∀ (c : Scheme) (s : State), RunReady c s →
    ∃ t1 t2 t3 t4, exec (mapOf c) s = .next t1 ∧ exec .synth t1 = .next t2 ∧ exec .noise t2 = .next t3 ∧
      exec .demod t3 = .next t4 ∧ exec (runOf c) s = .next t4 ∧
      t1.err = s.err ∧ t2.err = s.err ∧ t3.err = s.err ∧ t4.err = s.err ∧
      t1.errMulti = s.errMulti ∧ t2.errMulti = s.errMulti ∧ t3.errMulti = s.errMulti ∧ t4.errMulti = s.errMulti

/-- RUN.s's result registers and its frame (R261 to R266, R188, R207). -/
def Obligations.RunResultsAndFrame : Prop :=
  ∀ (c : Scheme) (s : State), RunReady c s →
    ∃ t, exec (runOf c) s = .next t ∧
      t.csr.symCount.toNat = s.csr.nbits.toNat / bitsPer c ∧ t.csr.symInfo = infoOf c ∧
      t.csr.sigCount.toNat = s.csr.nbits.toNat / bitsPer c * s.csr.nsps.toNat ∧
      t.csr.sigInfo = (if s.csr.sigma = 0#32 then infoOf c else infoOf c ||| 0x100#32) ∧
      t.csr.estCount.toNat = (if c = .fsk then 0 else s.csr.nbits.toNat / bitsPer c) ∧
      t.csr.estInfo = (if c = .fsk then infoOf c else infoOf c ||| ((s.csr.ctrl &&& 1#32) <<< 8)) ∧
      t.csr.nrng = (if s.csr.sigma = 0#32 then s.csr.nrng
        else rngAfter (2 * (s.csr.nbits.toNat / bitsPer c * s.csr.nsps.toNat)) s.csr.nrng) ∧
      t.pend = none ∧ t.busy = false ∧ t.done = true ∧
      (∀ i, i < 32 → i ∉ [0, 1, 3] → t.csr.status.getLsbD i = s.csr.status.getLsbD i) ∧
      (s.sat = true → t.sat = true) ∧
      CsrsKept [.status, .symCount, .symInfo, .sigCount, .sigInfo, .estCount, .estInfo, .nrng] s t ∧
      BytesKept (fun a => InWords Config.symBase (2 * (s.csr.nbits.toNat / bitsPer c)) a ∨
        InWords Config.sigBase (s.csr.nbits.toNat / bitsPer c * s.csr.nsps.toNat) a ∨
        (c ≠ .fsk ∧ InWords Config.estBase (2 * (s.csr.nbits.toNat / bitsPer c)) a)) s t ∧
      InputsKept s t

/-- SRESET (R267): every CSR takes its reset value, STATUS and so DONE and irq are 0, PEND is empty, the buffers keep their
contents; every other word with OP = 15 is illegal, and an SRESET written while BUSY = 1 is dropped. -/
def Obligations.SresetRestoresEveryCsr : Prop :=
  decode (.command 0x0000000F#32) = .instr .sreset ∧
  (∀ w : Word, w.toNat % 16 = 15 → w ≠ 0x0000000F#32 → decodeCommand w = .illegal) ∧
  (∀ s : State, s.busy = true → exec (.busWr 0x00014#20 0x0000000F#32) s =
    .next { s with csr := { s.csr with status := s.csr.status ||| 0x10#32 }, reply := some (.writeAck .ok) }) ∧
  ∀ s, ∃ t, exec .sreset s = .next t ∧ (∀ c, t.csrValue c = State.reset.csrValue c) ∧
    t.csr.status = 0#32 ∧ t.irq = false ∧ t.pend = none ∧ BytesKept Nowhere s t ∧ InputsKept s t

/-! ## The bus -/

/-- A read while BUSY = 0 is answered OK with the register at its offset, 0 at a reserved offset, or the buffer's word,
and changes nothing but the answer (R55, R84). -/
def Obligations.BusReadWhileIdle : Prop :=
  ∀ s : State, s.busy = false →
    (∀ p ∈ [(0x00000#20, 0x51414D01#32), (0x00004#20, 0x10100C0A#32), (0x00008#20, s.csr.ctrl),
        (0x0000C#20, s.csr.status), (0x00010#20, s.csr.irqEn), (0x00014#20, s.csr.lastCmd),
        (0x00018#20, s.csr.errCode), (0x0001C#20, s.csr.errCmd), (0x00020#20, s.csr.nbits),
        (0x00024#20, s.csr.nsps), (0x00028#20, s.csr.amp), (0x0002C#20, s.csr.carFcw),
        (0x00030#20, s.csr.devFcw), (0x00034#20, s.csr.sigma), (0x00038#20, s.csr.brng),
        (0x0003C#20, s.csr.nrng), (0x00040#20, s.csr.symCount), (0x00044#20, s.csr.symInfo),
        (0x00048#20, s.csr.sigCount), (0x0004C#20, s.csr.sigInfo), (0x00050#20, s.csr.estCount),
        (0x00054#20, s.csr.estInfo)],
      exec (.busRd p.1) s = .next { s with reply := some (.readData .ok p.2) }) ∧
    (∀ a : BusAddr, a.toNat % 4 = 0 → 0x58 ≤ a.toNat → a.toNat < 0x100 →
      exec (.busRd a) s = .next { s with reply := some (.readData .ok 0#32) }) ∧
    (∀ a : BusAddr, a.toNat % 4 = 0 → (HostWritableBuffer a.toNat ∨ HostReadOnlyBuffer a.toNat) →
      exec (.busRd a) s = .next { s with reply := some (.readData .ok (s.wordAt a.toNat)) })

/-- A read while BUSY = 1 (R333): the registers the engine does not write are exact, STATUS is exact but for ERR, SAT and
ERR_MULTI, and every mapped word address is answered OK with some value. -/
def Obligations.BusReadWhileBusy : Prop :=
  ∀ s : State, s.busy = true →
    (∀ p ∈ [(0x00000#20, 0x51414D01#32), (0x00004#20, 0x10100C0A#32), (0x00008#20, s.csr.ctrl),
        (0x00010#20, s.csr.irqEn), (0x00014#20, s.csr.lastCmd), (0x00020#20, s.csr.nbits),
        (0x00024#20, s.csr.nsps), (0x00028#20, s.csr.amp), (0x0002C#20, s.csr.carFcw),
        (0x00030#20, s.csr.devFcw), (0x00034#20, s.csr.sigma)],
      exec (.busRd p.1) s = .next { s with reply := some (.readData .ok p.2) }) ∧
    (∀ a : BusAddr, a.toNat % 4 = 0 → 0x58 ≤ a.toNat → a.toNat < 0x100 →
      exec (.busRd a) s = .next { s with reply := some (.readData .ok 0#32) }) ∧
    (∃ v : Word, exec (.busRd 0x0000C#20) s = .next { s with reply := some (.readData .ok v) } ∧
      ∀ i, i < 32 → i ∉ [2, 3, 6] → v.getLsbD i = s.csr.status.getLsbD i) ∧
    (∀ a : BusAddr, a.toNat % 4 = 0 → ¬ Unmapped a.toNat →
      ∃ v : Word, exec (.busRd a) s = .next { s with reply := some (.readData .ok v) })

/-- A misaligned or unmapped access is answered ERR, is the host program's fault, and changes no state but the answer
(R86, R292). -/
def Obligations.BusErrorChangesNothing : Prop :=
  ∀ (s : State) (a : BusAddr) (d : Word), (a.toNat % 4 ≠ 0 ∨ Unmapped a.toNat) →
    exec (.busRd a) s = .next { s with reply := some (.readData .err 0#32) } ∧
    exec (.busWr a d) s = .next { s with reply := some (.writeAck .err) } ∧
    ({ s with reply := some (.readData .err 0#32) } : State).hostFault = true ∧
    ({ s with reply := some (.writeAck .err) } : State).hostFault = true

/-- Writes to the configuration registers while BUSY = 0: all 32 bits are stored, reserved bits are ignored, a seed of 0
stores the reset seed (R24, R31 to R38, R41, R42), and nothing else changes. -/
def Obligations.ConfigurationWriteWhileIdle : Prop :=
  ∀ (s : State) (v : Word), s.busy = false →
    ∀ p ∈ [(0x00008#20, { s.csr with ctrl := v &&& 0x1#32 }), (0x00020#20, { s.csr with nbits := v }),
        (0x00024#20, { s.csr with nsps := v }), (0x00028#20, { s.csr with amp := v }),
        (0x0002C#20, { s.csr with carFcw := v }), (0x00030#20, { s.csr with devFcw := v }),
        (0x00034#20, { s.csr with sigma := v }),
        (0x00038#20, { s.csr with brng := if v = 0#32 then 0x12345678#32 else v }),
        (0x0003C#20, { s.csr with nrng := if v = 0#32 then 0x9E3779B9#32 else v }),
        (0x00048#20, { s.csr with sigCount := v }), (0x0004C#20, { s.csr with sigInfo := v &&& 0x173#32 })],
      exec (.busWr p.1 v) s = .next { s with csr := p.2, reply := some (.writeAck .ok) }

/-- Writes while BUSY = 1 to a configuration register or to a word of BIT_MEM or SIG_MEM are dropped with WR_BUSY
(R332). -/
def Obligations.WriteWhileBusyIsDropped : Prop :=
  ∀ (s : State) (v : Word) (a : BusAddr), s.busy = true →
    (a.toNat ∈ [0x08, 0x20, 0x24, 0x28, 0x2C, 0x30, 0x34, 0x38, 0x3C, 0x48, 0x4C] ∨
      (a.toNat % 4 = 0 ∧ HostWritableBuffer a.toNat)) →
    exec (.busWr a v) s =
      .next { s with csr := { s.csr with status := s.csr.status ||| 0x20#32 }, reply := some (.writeAck .ok) }

/-- A write of a word to CMD (R270, R331): accepted while BUSY = 0, dropped with CMD_OVR while BUSY = 1. -/
def Obligations.CmdWriteIsAcceptedOrDropped : Prop :=
  ∀ (s : State) (w : Word),
    (s.busy = true → exec (.busWr 0x00014#20 w) s =
      .next { s with csr := { s.csr with status := s.csr.status ||| 0x10#32 }, reply := some (.writeAck .ok) }) ∧
    (s.busy = false → ∃ t, exec (.busWr 0x00014#20 w) s = .next t ∧ t.pend = some w ∧ t.csr.lastCmd = w ∧
      t.busy = true ∧ t.done = false ∧
      (∀ i, i < 32 → i ∉ [0, 1] → t.csr.status.getLsbD i = s.csr.status.getLsbD i) ∧
      CsrsKept [.status, .cmd] s t ∧ t.mem = s.mem ∧ t.reply = some (.writeAck .ok) ∧
      t.presetn = s.presetn ∧ t.turns = s.turns ∧ t.drawIx = s.drawIx ∧ t.powerOns = s.powerOns)

/-- A write to STATUS clears the W1C bits written as 1, and the error record with ERR, even while BUSY = 1 (R26). -/
def Obligations.StatusWriteClearsTheWrittenBits : Prop :=
  ∀ (s : State) (v : Word), ∃ t, exec (.busWr 0x0000C#20 v) s = .next t ∧
    (∀ i, i < 32 → t.csr.status.getLsbD i =
      (if 1 ≤ i ∧ i ≤ 6 ∧ v.getLsbD i = true then false else s.csr.status.getLsbD i)) ∧
    (v.getLsbD 2 = true → t.csr.errCode = 0#32 ∧ t.csr.errCmd = 0#32) ∧
    (v.getLsbD 2 = false → t.csr.errCode = s.csr.errCode ∧ t.csr.errCmd = s.csr.errCmd) ∧
    CsrsKept [.status, .errCode, .errCmd] s t ∧ t.pend = s.pend ∧ t.mem = s.mem ∧
    t.reply = some (.writeAck .ok) ∧ t.presetn = s.presetn ∧ t.turns = s.turns ∧ t.drawIx = s.drawIx ∧
    t.powerOns = s.powerOns

/-- A write to IRQ_EN stores bits 2..0, even while BUSY = 1 (R27). -/
def Obligations.IrqEnWriteTakesEffectAtAnyTime : Prop :=
  ∀ (s : State) (v : Word), exec (.busWr 0x00010#20 v) s =
    .next { s with csr := { s.csr with irqEn := v &&& 0x7#32 }, reply := some (.writeAck .ok) }

/-- Writes to read-only CSRs, to reserved offsets, to SYM_MEM and to EST_MEM are ignored with OK at any time
(R45, R46, R85). -/
def Obligations.WritesToReadOnlyTargetsAreIgnored : Prop :=
  ∀ (s : State) (v : Word) (a : BusAddr),
    (a.toNat ∈ [0x00, 0x04, 0x18, 0x1C, 0x40, 0x44, 0x50, 0x54] ∨
      (a.toNat % 4 = 0 ∧ 0x58 ≤ a.toNat ∧ a.toNat < 0x100) ∨
      (a.toNat % 4 = 0 ∧ HostReadOnlyBuffer a.toNat)) →
    exec (.busWr a v) s = .next { s with reply := some (.writeAck .ok) }

/-- A write of a word to BIT_MEM or SIG_MEM while BUSY = 0 replaces that word and no other byte, and the next read of it
returns it (R85, R97). -/
def Obligations.BufferWriteReadsBack : Prop :=
  ∀ (s : State) (a : BusAddr) (d : Word), s.busy = false → a.toNat % 4 = 0 → HostWritableBuffer a.toNat →
    ∃ t, exec (.busWr a d) s = .next t ∧ t.wordAt a.toNat = d ∧ BytesKept (InWords a.toNat 1) s t ∧
      t.csr = s.csr ∧ t.pend = s.pend ∧ t.reply = some (.writeAck .ok) ∧ t.presetn = s.presetn ∧
      t.turns = s.turns ∧ t.drawIx = s.drawIx ∧ t.powerOns = s.powerOns ∧
      exec (.busRd a) t = .next { t with reply := some (.readData .ok d) }

/-- The interrupt output while BUSY = 0 (R293). -/
def Obligations.IrqIsTheEnabledFlags : Prop :=
  ∀ s : State, s.busy = false →
    (s.irq = true ↔ (s.done = true ∧ s.csr.irqEn.getLsbD 0 = true) ∨
      (s.err = true ∧ s.csr.irqEn.getLsbD 1 = true) ∨ (s.sat = true ∧ s.csr.irqEn.getLsbD 2 = true))

/-! ## Reset -/

/-- The reset values of R55, PEND empty, BUSY = 0 and irq = 0 (R320, R321, R323, R324). -/
def Obligations.ResetLeavesTheResetValues : Prop :=
  [Csr.id, .caps, .ctrl, .status, .irqEn, .cmd, .errCode, .errCmd, .nbits, .nsps, .amp, .carFcw, .devFcw, .sigma,
      .brng, .nrng, .symCount, .symInfo, .sigCount, .sigInfo, .estCount, .estInfo].map State.reset.csrValue =
    [0x51414D01#32, 0x10100C0A#32, 0#32, 0#32, 0#32, 0#32, 0#32, 0#32, 0#32, 8#32, 0x00010000#32,
      0x20000000#32, 0x10000000#32, 0#32, 0x12345678#32, 0x9E3779B9#32, 0#32, 0#32, 0#32, 0#32, 0#32, 0#32] ∧
  State.reset.pend = none ∧ State.reset.busy = false ∧ State.reset.irq = false

/-- The hardware reset input (R320 to R324): asserting it resets the CSRs and empties PEND, and leaves every buffer byte
that the pending command could not write, all of them while BUSY = 0; releasing it changes nothing else. Which words the
pending command could write (`pendingFootprint`) is the model's reading of R322, deduced and unsafe in its extent
(assumption log 4); that the reset takes effect at the assertion is the model's choice (assumption log 8). -/
def Obligations.HardwareReset : Prop :=
  (∀ (s : State) (rest : List Turn), s.turns = .resetAssert :: rest →
    ∃ t, step s = .next t ∧ (∀ c, t.csrValue c = State.reset.csrValue c) ∧ t.pend = none ∧
      t.busy = false ∧ t.done = false ∧ t.irq = false ∧ t.presetn = false ∧ t.turns = rest ∧
      (s.busy = false → BytesKept Nowhere s t) ∧
      BytesKept (fun a => InWords Config.bitBase s.pendingFootprint.bit a ∨
        InWords Config.symBase s.pendingFootprint.sym a ∨ InWords Config.estBase s.pendingFootprint.est a ∨
        InWords Config.sigBase s.pendingFootprint.sig a) s t) ∧
  (∀ (s : State) (rest : List Turn), s.turns = .resetRelease :: rest →
    step s = .next { s with turns := rest, drawIx := s.drawIx + 1, presetn := true })

/-- While `presetn` is asserted the slave answers no transaction, and the transaction has no effect (R320). -/
def Obligations.NoAnswerWhileResetIsAsserted : Prop :=
  ∀ (s : State) (t : BusTuple) (rest : List Turn), s.presetn = false → s.turns = .bus t :: rest →
    step s = .next { s with turns := rest, drawIx := s.drawIx + 1, reply := none }

/-- A power cycle loses all state and ends in the state after hardware reset (R303, R320). -/
def Obligations.PowerCycleLosesAllState : Prop :=
  ∀ (s : State) (rest : List Turn), s.turns = .powerCycle :: rest →
    step s = .next { State.reset with turns := rest, drawIx := s.drawIx + 1, powerOns := s.powerOns + 1 }

/-! ## Kernels -/

/-- Saturation (R140). -/
def Obligations.SaturationClamps : Prop :=
  ∀ v : Int,
    (2147483647 < v → sat32 v = 2147483647 ∧ saturates v = true) ∧
    (v < -2147483648 → sat32 v = -2147483648 ∧ saturates v = true) ∧
    (-2147483648 ≤ v → v ≤ 2147483647 → sat32 v = v ∧ saturates v = false)

/-- COSLUT[k] is 65536 × cos(2πk / 1024) rounded half away from zero, and SINLUT(k) the same of the sine
(R142, R143). -/
def Obligations.TableIsTheRoundedCosine : Prop :=
  ∀ k : Nat, k < 1024 →
    sinLut k = cosLut ((k + 768) % 1024) ∧
    (|(cosLut k : ℝ) - 65536 * Real.cos (2 * Real.pi * k / 1024)| < 1 / 2) ∧
    (|(sinLut k : ℝ) - 65536 * Real.sin (2 * Real.pi * k / 1024)| < 1 / 2)

/-- The symmetries of the table (R144). -/
def Obligations.TableSymmetries : Prop :=
  ∀ k : Nat, k < 1024 →
    cosLut ((k + 512) % 1024) = -cosLut k ∧ cosLut ((1024 - k) % 1024) = cosLut k

/-- A phase accumulator that starts at 0 and adds F every sample, modulo 2^32, holds phase(m, F) (R145, R147). -/
def Obligations.PhaseAccumulatorHoldsThePhase : Prop :=
  ∀ (f : Word) (pa : Nat → Word), pa 0 = 0#32 → (∀ m, pa (m + 1) = pa m + f) →
    ∀ m, pa m = phase m f ∧ (pa m).toNat = m * f.toNat % 2 ^ 32

/-- A nonzero generator state never steps to 0, because the step is invertible and keeps 0 (R151). -/
def Obligations.GeneratorNeverReachesZero : Prop :=
  xs32 0#32 = 0#32 ∧ Function.Injective xs32 ∧ ∀ (n : Nat) (g : Word), g ≠ 0#32 → rngAfter n g ≠ 0#32

/-- The radius function stays within half a unit, and a millionth, of the real radius of Box-Muller. This bounds the
error of the model's method (assumption log 5); it does not give the exact rounding of R153. -/
def Obligations.RadiusIsNearTheBoxMullerRadius : Prop :=
  ∀ w : Word, w ≠ 0#32 →
    |((rad w : Nat) : ℝ) - 65536 * Real.sqrt (-2 * Real.log ((w.toNat : ℝ) / 4294967296))| ≤ 1 / 2 + 1 / 1000000

/-- The bound on a noise value; R223's bound on its magnitude can be passed by one unit below, since the rounding is
floor. -/
def Obligations.NoiseValueIsBounded : Prop :=
  ∀ (sigma : Int) (wu wv : Word), 0 ≤ sigma → wu ≠ 0#32 →
    -(sigma * 436498 * 65536 / 4294967296) - 1 ≤ noiseval sigma wu wv ∧
    noiseval sigma wu wv ≤ sigma * 436498 * 65536 / 4294967296

/-- Adding half a turn to the phase is negating the amplitude, exactly (R205). -/
def Obligations.HalfTurnNegatesTheSample : Prop :=
  ∀ (a : Int) (m : Nat) (f : Word),
    a * cosLut (lutIndex (phase m f + 0x80000000#32)) / 65536 = -a * cosLut (lutIndex (phase m f)) / 65536

/-! ## Invariants and whole-machine rules -/

/-- The invariant holds after reset. -/
def Obligations.InvariantHoldsAtReset : Prop := Inv State.reset

/-- Every step keeps the invariant. -/
def Obligations.EveryStepKeepsTheInvariant : Prop :=
  ∀ s t : State, Inv s → step s = .next t → Inv t

/-- From a state with the invariant the machine always steps on: no fault and no refusal. -/
def Obligations.NoStepStops : Prop :=
  ∀ s : State, Inv s → ∃ t, step s = .next t

/-- While BUSY = 1 no run of host transactions changes PEND, a register or a buffer that the pending command reads, so
the engine's step reads the values of acceptance (R336). -/
def Obligations.ConfigurationIsStableWhileBusy : Prop :=
  ∀ (s : State) (l : List BusTuple) (rest : List Turn), s.busy = true → s.presetn = true →
    s.turns = l.map .bus ++ rest →
    ∃ t : State, Sys2Proof.core.run l.length s = .next t ∧ t.busy = true ∧ t.pend = s.pend ∧ t.presetn = true ∧
      t.turns = rest ∧ CsrsKept [.status, .irqEn, .errCode, .errCmd] s t ∧ BytesKept Nowhere s t

/-- An accepted command completes: whatever transactions the host issues first, the engine's step that follows them
empties PEND and clears BUSY, and sets DONE unless the command is SRESET (R335, R337, R267). That ENGINE moves when no
input is left is the model's form of the weak fairness of R337 (assumption log 6). -/
def Obligations.AcceptedCommandCompletes : Prop :=
  ∀ (s : State) (l : List BusTuple), Inv s → s.busy = true → s.turns = l.map .bus →
    ∃ t : State, Sys2Proof.core.run (l.length + 1) s = .next t ∧ t.busy = false ∧ t.pend = none ∧
      (t.done = true ∨ s.pend = some 0x0000000F#32)

/-- The bits GENBITS draws, and the state it leaves in BRNG, depend on NBITS and BRNG alone (R172). -/
def Obligations.GenbitsIsAFunctionOfItsSeed : Prop :=
  ∀ s u : State, s.csr.nbits = u.csr.nbits → s.csr.brng = u.csr.brng →
    1 ≤ s.csr.nbits.toNat → s.csr.nbits.toNat ≤ 4096 →
    ∃ t v, exec .genbits s = .next t ∧ exec .genbits u = .next v ∧ t.csr.brng = v.csr.brng ∧
      ∀ i, i < s.csr.nbits.toNat → t.streamBit i = v.streamBit i

/-- No command but SRESET changes a configuration register (R114). -/
def Obligations.OnlySresetChangesTheConfiguration : Prop :=
  ∀ (i : Instr) (s t : State), i ≠ .sreset → (∀ a d, i ≠ .busWr a d) → exec i s = .next t →
    t.csr.ctrl = s.csr.ctrl ∧ t.csr.irqEn = s.csr.irqEn ∧ t.csr.lastCmd = s.csr.lastCmd ∧
    t.csr.nbits = s.csr.nbits ∧ t.csr.nsps = s.csr.nsps ∧ t.csr.amp = s.csr.amp ∧
    t.csr.carFcw = s.csr.carFcw ∧ t.csr.devFcw = s.csr.devFcw ∧ t.csr.sigma = s.csr.sigma

/-- The round trip at a carrier of a quarter cycle per sample with N = 4 and gain 2: synthesis and demodulation give back
every symbol word exactly, whatever it is but -2^31 (R246; R245's condition with q = 2). At this carrier no rounding
acts; what R246 says of positive levels at other carriers is not claimed (assumption log 20). -/
def Obligations.RoundTripIsExactAtAQuarterCycle : Prop :=
  ∀ s : State, s.csr.symInfo.toNat % 4 = 1 → s.csr.nsps = 4#32 → s.csr.carFcw = 0x40000000#32 →
    s.csr.ctrl.getLsbD 0 = true → s.csr.symCount.toNat ≤ 4096 →
    (∀ j, j < 2 * s.csr.symCount.toNat → s.symWord j ≠ 0x80000000#32) →
    ∃ t u, exec .synth s = .next t ∧ exec .demod t = .next u ∧ u.csr.estCount = s.csr.symCount ∧
      u.sat = s.sat ∧ ∀ j, j < 2 * s.csr.symCount.toNat → u.estWord j = s.symWord j
end

