-- ==== Sys2Proof/Laws/State.lean ====
section
/-! SUPPORT. One lemma per field for every named update of the state, so that no proof unfolds a record update. -/

namespace Sys2Proof.Machine

/-! ## setStatus -/

@[simp] theorem setStatus_csr (s : State) (w : Word) : (s.setStatus w).csr = { s.csr with status := w } := rfl
@[simp] theorem setStatus_pend (s : State) (w : Word) : (s.setStatus w).pend = s.pend := rfl
@[simp] theorem setStatus_mem (s : State) (w : Word) : (s.setStatus w).mem = s.mem := rfl
@[simp] theorem setStatus_presetn (s : State) (w : Word) : (s.setStatus w).presetn = s.presetn := rfl
@[simp] theorem setStatus_reply (s : State) (w : Word) : (s.setStatus w).reply = s.reply := rfl
@[simp] theorem setStatus_turns (s : State) (w : Word) : (s.setStatus w).turns = s.turns := rfl
@[simp] theorem setStatus_drawIx (s : State) (w : Word) : (s.setStatus w).drawIx = s.drawIx := rfl
@[simp] theorem setStatus_powerOns (s : State) (w : Word) : (s.setStatus w).powerOns = s.powerOns := rfl

/-! ## raiseFlags -/

@[simp] theorem raiseFlags_csr (s : State) (k : Word) : (s.raiseFlags k).csr = { s.csr with status := setBits s.csr.status k } := rfl
@[simp] theorem raiseFlags_pend (s : State) (k : Word) : (s.raiseFlags k).pend = s.pend := rfl
@[simp] theorem raiseFlags_mem (s : State) (k : Word) : (s.raiseFlags k).mem = s.mem := rfl
@[simp] theorem raiseFlags_presetn (s : State) (k : Word) : (s.raiseFlags k).presetn = s.presetn := rfl
@[simp] theorem raiseFlags_reply (s : State) (k : Word) : (s.raiseFlags k).reply = s.reply := rfl
@[simp] theorem raiseFlags_turns (s : State) (k : Word) : (s.raiseFlags k).turns = s.turns := rfl
@[simp] theorem raiseFlags_drawIx (s : State) (k : Word) : (s.raiseFlags k).drawIx = s.drawIx := rfl
@[simp] theorem raiseFlags_powerOns (s : State) (k : Word) : (s.raiseFlags k).powerOns = s.powerOns := rfl

/-! ## clearFlags -/

@[simp] theorem clearFlags_csr (s : State) (k : Word) : (s.clearFlags k).csr = { s.csr with status := clearBits s.csr.status k } := rfl
@[simp] theorem clearFlags_pend (s : State) (k : Word) : (s.clearFlags k).pend = s.pend := rfl
@[simp] theorem clearFlags_mem (s : State) (k : Word) : (s.clearFlags k).mem = s.mem := rfl
@[simp] theorem clearFlags_presetn (s : State) (k : Word) : (s.clearFlags k).presetn = s.presetn := rfl
@[simp] theorem clearFlags_reply (s : State) (k : Word) : (s.clearFlags k).reply = s.reply := rfl
@[simp] theorem clearFlags_turns (s : State) (k : Word) : (s.clearFlags k).turns = s.turns := rfl
@[simp] theorem clearFlags_drawIx (s : State) (k : Word) : (s.clearFlags k).drawIx = s.drawIx := rfl
@[simp] theorem clearFlags_powerOns (s : State) (k : Word) : (s.clearFlags k).powerOns = s.powerOns := rfl

/-! ## setCsr -/

@[simp] theorem setCsr_csr (s : State) (c : Csrs) : (s.setCsr c).csr = c := rfl
@[simp] theorem setCsr_pend (s : State) (c : Csrs) : (s.setCsr c).pend = s.pend := rfl
@[simp] theorem setCsr_mem (s : State) (c : Csrs) : (s.setCsr c).mem = s.mem := rfl
@[simp] theorem setCsr_presetn (s : State) (c : Csrs) : (s.setCsr c).presetn = s.presetn := rfl
@[simp] theorem setCsr_reply (s : State) (c : Csrs) : (s.setCsr c).reply = s.reply := rfl
@[simp] theorem setCsr_turns (s : State) (c : Csrs) : (s.setCsr c).turns = s.turns := rfl
@[simp] theorem setCsr_drawIx (s : State) (c : Csrs) : (s.setCsr c).drawIx = s.drawIx := rfl
@[simp] theorem setCsr_powerOns (s : State) (c : Csrs) : (s.setCsr c).powerOns = s.powerOns := rfl

/-! ## latchCommand -/

@[simp] theorem latchCommand_csr (s : State) (w : Word) : (s.latchCommand w).csr = { s.csr with lastCmd := w, status := setBits (clearBits s.csr.status fDone) fBusy } := rfl
@[simp] theorem latchCommand_pend (s : State) (w : Word) : (s.latchCommand w).pend = some w := rfl
@[simp] theorem latchCommand_mem (s : State) (w : Word) : (s.latchCommand w).mem = s.mem := rfl
@[simp] theorem latchCommand_presetn (s : State) (w : Word) : (s.latchCommand w).presetn = s.presetn := rfl
@[simp] theorem latchCommand_reply (s : State) (w : Word) : (s.latchCommand w).reply = s.reply := rfl
@[simp] theorem latchCommand_turns (s : State) (w : Word) : (s.latchCommand w).turns = s.turns := rfl
@[simp] theorem latchCommand_drawIx (s : State) (w : Word) : (s.latchCommand w).drawIx = s.drawIx := rfl
@[simp] theorem latchCommand_powerOns (s : State) (w : Word) : (s.latchCommand w).powerOns = s.powerOns := rfl

/-! ## raiseError -/

@[simp] theorem raiseError_csr (s : State) (e : CmdError) : (s.raiseError e).csr = { s.csr.recordError e s.pendWord with status := clearBits (setBits (s.csr.recordError e s.pendWord).status (fErr ||| fDone)) fBusy } := rfl
@[simp] theorem raiseError_pend (s : State) (e : CmdError) : (s.raiseError e).pend = none := rfl
@[simp] theorem raiseError_mem (s : State) (e : CmdError) : (s.raiseError e).mem = s.mem := rfl
@[simp] theorem raiseError_presetn (s : State) (e : CmdError) : (s.raiseError e).presetn = s.presetn := rfl
@[simp] theorem raiseError_reply (s : State) (e : CmdError) : (s.raiseError e).reply = s.reply := rfl
@[simp] theorem raiseError_turns (s : State) (e : CmdError) : (s.raiseError e).turns = s.turns := rfl
@[simp] theorem raiseError_drawIx (s : State) (e : CmdError) : (s.raiseError e).drawIx = s.drawIx := rfl
@[simp] theorem raiseError_powerOns (s : State) (e : CmdError) : (s.raiseError e).powerOns = s.powerOns := rfl

/-! ## complete -/

@[simp] theorem complete_csr (s : State) : (s.complete).csr = { s.csr with status := setBits (clearBits s.csr.status fBusy) fDone } := rfl
@[simp] theorem complete_pend (s : State) : (s.complete).pend = none := rfl
@[simp] theorem complete_mem (s : State) : (s.complete).mem = s.mem := rfl
@[simp] theorem complete_presetn (s : State) : (s.complete).presetn = s.presetn := rfl
@[simp] theorem complete_reply (s : State) : (s.complete).reply = s.reply := rfl
@[simp] theorem complete_turns (s : State) : (s.complete).turns = s.turns := rfl
@[simp] theorem complete_drawIx (s : State) : (s.complete).drawIx = s.drawIx := rfl
@[simp] theorem complete_powerOns (s : State) : (s.complete).powerOns = s.powerOns := rfl

/-! ## putWords -/

@[simp] theorem putWords_csr (s : State) (a : Nat) (ws : List Word) : (s.putWords a ws).csr = s.csr := rfl
@[simp] theorem putWords_pend (s : State) (a : Nat) (ws : List Word) : (s.putWords a ws).pend = s.pend := rfl
@[simp] theorem putWords_mem (s : State) (a : Nat) (ws : List Word) : (s.putWords a ws).mem = memPutWords s.mem a ws := rfl
@[simp] theorem putWords_presetn (s : State) (a : Nat) (ws : List Word) : (s.putWords a ws).presetn = s.presetn := rfl
@[simp] theorem putWords_reply (s : State) (a : Nat) (ws : List Word) : (s.putWords a ws).reply = s.reply := rfl
@[simp] theorem putWords_turns (s : State) (a : Nat) (ws : List Word) : (s.putWords a ws).turns = s.turns := rfl
@[simp] theorem putWords_drawIx (s : State) (a : Nat) (ws : List Word) : (s.putWords a ws).drawIx = s.drawIx := rfl
@[simp] theorem putWords_powerOns (s : State) (a : Nat) (ws : List Word) : (s.putWords a ws).powerOns = s.powerOns := rfl

/-! ## storeResults -/

@[simp] theorem storeResults_csr (s : State) (a : Nat) (vs : List Int) : (s.storeResults a vs).csr = { s.csr with status := if vs.any saturates then setBits s.csr.status fSat else s.csr.status } := rfl
@[simp] theorem storeResults_pend (s : State) (a : Nat) (vs : List Int) : (s.storeResults a vs).pend = s.pend := rfl
@[simp] theorem storeResults_mem (s : State) (a : Nat) (vs : List Int) : (s.storeResults a vs).mem = memPutWords s.mem a (vs.map storedWord) := rfl
@[simp] theorem storeResults_presetn (s : State) (a : Nat) (vs : List Int) : (s.storeResults a vs).presetn = s.presetn := rfl
@[simp] theorem storeResults_reply (s : State) (a : Nat) (vs : List Int) : (s.storeResults a vs).reply = s.reply := rfl
@[simp] theorem storeResults_turns (s : State) (a : Nat) (vs : List Int) : (s.storeResults a vs).turns = s.turns := rfl
@[simp] theorem storeResults_drawIx (s : State) (a : Nat) (vs : List Int) : (s.storeResults a vs).drawIx = s.drawIx := rfl
@[simp] theorem storeResults_powerOns (s : State) (a : Nat) (vs : List Int) : (s.storeResults a vs).powerOns = s.powerOns := rfl

/-! ## beginStep -/

@[simp] theorem beginStep_csr (s : State) : (s.beginStep).csr = s.csr := rfl
@[simp] theorem beginStep_pend (s : State) : (s.beginStep).pend = s.pend := rfl
@[simp] theorem beginStep_mem (s : State) : (s.beginStep).mem = s.mem := rfl
@[simp] theorem beginStep_presetn (s : State) : (s.beginStep).presetn = s.presetn := rfl
@[simp] theorem beginStep_reply (s : State) : (s.beginStep).reply = s.reply := rfl
@[simp] theorem beginStep_turns (s : State) : (s.beginStep).turns = s.turns.tail := rfl
@[simp] theorem beginStep_drawIx (s : State) : (s.beginStep).drawIx = s.drawIx + 1 := rfl
@[simp] theorem beginStep_powerOns (s : State) : (s.beginStep).powerOns = s.powerOns := rfl

/-! ## releaseReset -/

@[simp] theorem releaseReset_csr (s : State) : (s.releaseReset).csr = s.csr := rfl
@[simp] theorem releaseReset_pend (s : State) : (s.releaseReset).pend = s.pend := rfl
@[simp] theorem releaseReset_mem (s : State) : (s.releaseReset).mem = s.mem := rfl
@[simp] theorem releaseReset_presetn (s : State) : (s.releaseReset).presetn = true := rfl
@[simp] theorem releaseReset_reply (s : State) : (s.releaseReset).reply = s.reply := rfl
@[simp] theorem releaseReset_turns (s : State) : (s.releaseReset).turns = s.turns := rfl
@[simp] theorem releaseReset_drawIx (s : State) : (s.releaseReset).drawIx = s.drawIx := rfl
@[simp] theorem releaseReset_powerOns (s : State) : (s.releaseReset).powerOns = s.powerOns := rfl

/-! ## assertReset -/

@[simp] theorem assertReset_csr (s : State) : (s.assertReset).csr = Csrs.reset := rfl
@[simp] theorem assertReset_pend (s : State) : (s.assertReset).pend = none := rfl
@[simp] theorem assertReset_mem (s : State) : (s.assertReset).mem = s.abandonPending.mem := rfl
@[simp] theorem assertReset_presetn (s : State) : (s.assertReset).presetn = false := rfl
@[simp] theorem assertReset_reply (s : State) : (s.assertReset).reply = none := rfl
@[simp] theorem assertReset_turns (s : State) : (s.assertReset).turns = s.turns := rfl
@[simp] theorem assertReset_drawIx (s : State) : (s.assertReset).drawIx = s.drawIx := rfl
@[simp] theorem assertReset_powerOns (s : State) : (s.assertReset).powerOns = s.powerOns := rfl

/-! ## cyclePower -/

@[simp] theorem cyclePower_csr (s : State) : (s.cyclePower).csr = Csrs.reset := rfl
@[simp] theorem cyclePower_pend (s : State) : (s.cyclePower).pend = none := rfl
@[simp] theorem cyclePower_mem (s : State) : (s.cyclePower).mem = [] := rfl
@[simp] theorem cyclePower_presetn (s : State) : (s.cyclePower).presetn = true := rfl
@[simp] theorem cyclePower_reply (s : State) : (s.cyclePower).reply = none := rfl
@[simp] theorem cyclePower_turns (s : State) : (s.cyclePower).turns = s.turns := rfl
@[simp] theorem cyclePower_drawIx (s : State) : (s.cyclePower).drawIx = s.drawIx := rfl
@[simp] theorem cyclePower_powerOns (s : State) : (s.cyclePower).powerOns = s.powerOns + 1 := rfl

/-! ## loadCommand -/

@[simp] theorem loadCommand_csr (s : State) (w : Word) : (s.loadCommand w).csr = (s.latchCommand w).csr := rfl
@[simp] theorem loadCommand_pend (s : State) (w : Word) : (s.loadCommand w).pend = some w := rfl
@[simp] theorem loadCommand_mem (s : State) (w : Word) : (s.loadCommand w).mem = s.mem := rfl
@[simp] theorem loadCommand_presetn (s : State) (w : Word) : (s.loadCommand w).presetn = true := rfl
@[simp] theorem loadCommand_reply (s : State) (w : Word) : (s.loadCommand w).reply = s.reply := rfl
@[simp] theorem loadCommand_turns (s : State) (w : Word) : (s.loadCommand w).turns = .engine :: s.turns := rfl
@[simp] theorem loadCommand_drawIx (s : State) (w : Word) : (s.loadCommand w).drawIx = s.drawIx := rfl
@[simp] theorem loadCommand_powerOns (s : State) (w : Word) : (s.loadCommand w).powerOns = s.powerOns := rfl

/-! ## loadTransaction -/

@[simp] theorem loadTransaction_csr (s : State) (t : BusTuple) : (s.loadTransaction t).csr = s.csr := rfl
@[simp] theorem loadTransaction_pend (s : State) (t : BusTuple) : (s.loadTransaction t).pend = s.pend := rfl
@[simp] theorem loadTransaction_mem (s : State) (t : BusTuple) : (s.loadTransaction t).mem = s.mem := rfl
@[simp] theorem loadTransaction_presetn (s : State) (t : BusTuple) : (s.loadTransaction t).presetn = true := rfl
@[simp] theorem loadTransaction_reply (s : State) (t : BusTuple) : (s.loadTransaction t).reply = s.reply := rfl
@[simp] theorem loadTransaction_turns (s : State) (t : BusTuple) : (s.loadTransaction t).turns = .bus t :: s.turns := rfl
@[simp] theorem loadTransaction_drawIx (s : State) (t : BusTuple) : (s.loadTransaction t).drawIx = s.drawIx := rfl
@[simp] theorem loadTransaction_powerOns (s : State) (t : BusTuple) : (s.loadTransaction t).powerOns = s.powerOns := rfl

end Sys2Proof.Machine
end

