-- ==== Sys2Proof/Laws/Memory.lean ====
section
/-! SUPPORT. The laws of the buffers' memory: a block write is read back, leaves every other byte alone, and keeps the
canonical form; the same for words. -/

namespace Sys2Proof.Machine

/-! ## Lookup -/

theorem memGet?_append (m n : Memory) (a : Nat) :
    memGet? (m ++ n) a = (memGet? m a).or (memGet? n a) := by
  induction m with
  | nil => simp [memGet?]
  | cons c r ih =>
    by_cases h : c.1 = a <;> simp [memGet?, h, ih]

theorem memGet?_filter_keep (p : Nat → Bool) (m : Memory) (a : Nat) (h : p a = true) :
    memGet? (m.filter fun c => p c.1) a = memGet? m a := by
  induction m with
  | nil => rfl
  | cons c r ih =>
    by_cases hc : c.1 = a
    · simp [memGet?, hc, h]
    · by_cases hp : p c.1 <;> simp [memGet?, hc, hp, ih]

theorem memGet?_filter_drop (p : Nat → Bool) (m : Memory) (a : Nat) (h : p a = false) :
    memGet? (m.filter fun c => p c.1) a = none := by
  induction m with
  | nil => rfl
  | cons c r ih =>
    by_cases hp : p c.1
    · have hc : c.1 ≠ a := fun e => by simp [e, h] at hp
      simp [memGet?, hc, hp, ih]
    · simp [hp, ih]

theorem memGet?_memCells (a : Nat) (bs : List Byte) (x : Nat) :
    memGet? (memCells a bs) x = if a ≤ x then bs[x - a]? else none := by
  induction bs generalizing a with
  | nil => simp [memCells, memGet?]
  | cons b bs ih =>
    rcases Nat.lt_trichotomy x a with h | h | h
    · have h1 : ¬ a ≤ x := by omega
      have h2 : ¬ a + 1 ≤ x := by omega
      have h3 : a ≠ x := by omega
      simp [memCells, memGet?, ih, h1, h2, h3]
    · subst h; simp [memCells, memGet?]
    · have h1 : a ≤ x := by omega
      have h2 : a + 1 ≤ x := by omega
      have h3 : a ≠ x := by omega
      obtain ⟨d, hd⟩ : ∃ d, x - a = d + 1 := ⟨x - a - 1, by omega⟩
      have h4 : x - (a + 1) = d := by omega
      simp [memCells, memGet?, ih, h1, h2, h3, hd, h4]

/-- A byte of the block reads as written. -/
theorem memGet?_memPutBlock_inside (m : Memory) (a : Nat) (bs : List Byte) (x : Nat)
    (h1 : a ≤ x) (h2 : x < a + bs.length) :
    memGet? (memPutBlock m a bs) x = bs[x - a]? := by
  unfold memPutBlock
  rw [memGet?_append, memGet?_append,
    memGet?_filter_drop (fun y => decide (y < a)) m x (by simpa using h1),
    memGet?_memCells, memGet?_filter_drop (fun y => decide (a + bs.length ≤ y)) m x (by simpa using h2)]
  simp [h1]

/-- A byte outside the block reads as before. -/
theorem memGet?_memPutBlock_outside (m : Memory) (a : Nat) (bs : List Byte) (x : Nat)
    (h : x < a ∨ a + bs.length ≤ x) :
    memGet? (memPutBlock m a bs) x = memGet? m x := by
  unfold memPutBlock
  rw [memGet?_append, memGet?_append, memGet?_memCells]
  rcases h with h | h
  · rw [memGet?_filter_keep (fun y => decide (y < a)) m x (by simpa using h),
      memGet?_filter_drop (fun y => decide (a + bs.length ≤ y)) m x (by simp; omega)]
    simp [Nat.not_le.mpr h]
  · rw [memGet?_filter_drop (fun y => decide (y < a)) m x (by simp; omega),
      memGet?_filter_keep (fun y => decide (a + bs.length ≤ y)) m x (by simpa using h)]
    have h1 : a ≤ x := by omega
    have h2 : bs.length ≤ x - a := by omega
    simp [h1, h2]

/-! ## The canonical form -/

theorem Memory.wf_iff (m : Memory) : Memory.wf m = true ↔ m.Pairwise (fun c d => c.1 < d.1) := by
  induction m with
  | nil => simp [Memory.wf]
  | cons c r ih =>
    cases r with
    | nil => simp [Memory.wf]
    | cons d r =>
      simp only [Memory.wf, Bool.and_eq_true, decide_eq_true_eq, ih, List.pairwise_cons,
        List.mem_cons, forall_eq_or_imp]
      constructor
      · rintro ⟨h, hd, hr⟩
        exact ⟨⟨h, fun e he => Nat.lt_trans h (hd e he)⟩, hd, hr⟩
      · rintro ⟨⟨h, _⟩, hd, hr⟩
        exact ⟨h, hd, hr⟩

theorem memCells_key (a : Nat) (bs : List Byte) (c : Host.Cell) (h : c ∈ memCells a bs) :
    a ≤ c.1 ∧ c.1 < a + bs.length := by
  induction bs generalizing a with
  | nil => simp [memCells] at h
  | cons b bs ih =>
    simp only [memCells, List.mem_cons] at h
    rcases h with h | h
    · subst h; simp
    · have := ih (a + 1) h
      simp only [List.length_cons]; omega

theorem memCells_rising (a : Nat) (bs : List Byte) :
    (memCells a bs).Pairwise (fun c d => c.1 < d.1) := by
  induction bs generalizing a with
  | nil => simp [memCells]
  | cons b bs ih =>
    refine List.pairwise_cons.mpr ⟨fun d hd => ?_, ih (a + 1)⟩
    have := (memCells_key (a + 1) bs d hd).1
    simp only; omega

/-- A block write keeps the canonical form. -/
theorem memPutBlock_wf (m : Memory) (a : Nat) (bs : List Byte) (h : Memory.wf m = true) :
    Memory.wf (memPutBlock m a bs) = true := by
  rw [Memory.wf_iff] at h ⊢
  unfold memPutBlock
  refine List.pairwise_append.mpr ⟨List.pairwise_append.mpr ⟨h.filter _, memCells_rising a bs, ?_⟩,
    h.filter _, ?_⟩
  · intro c hc d hd
    have h1 := (List.mem_filter.mp hc).2
    have h2 := memCells_key a bs d hd
    simp only [decide_eq_true_eq] at h1
    omega
  · intro c hc d hd
    have h1 := (List.mem_filter.mp hd).2
    simp only [decide_eq_true_eq] at h1
    rcases List.mem_append.mp hc with hc | hc
    · have h2 := (List.mem_filter.mp hc).2
      simp only [decide_eq_true_eq] at h2
      omega
    · have h2 := memCells_key a bs c hc
      omega

/-- A block write inside the buffers keeps every listed address inside them. -/
theorem memPutBlock_inBuffers (m : Memory) (a : Nat) (bs : List Byte) (h : Memory.inBuffers m = true)
    (hb : ∀ x, a ≤ x → x < a + bs.length → inBuffer x = true) :
    Memory.inBuffers (memPutBlock m a bs) = true := by
  unfold Memory.inBuffers at h ⊢
  rw [List.all_eq_true] at h ⊢
  intro c hc
  unfold memPutBlock at hc
  rcases List.mem_append.mp hc with hc | hc
  · rcases List.mem_append.mp hc with hc | hc
    · exact h c (List.mem_filter.mp hc).1
    · have := memCells_key a bs c hc
      exact hb c.1 this.1 this.2
  · exact h c (List.mem_filter.mp hc).1

/-! ## Words -/

@[simp] theorem wordsBytes_length (ws : List Word) : (wordsBytes ws).length = 4 * ws.length := by
  induction ws with
  | nil => rfl
  | cons w ws ih => simp [wordsBytes, wordBytes, ih]; omega

theorem wordsBytes_get (ws : List Word) (j : Nat) (hj : j < ws.length) (i : Nat) (hi : i < 4) :
    (wordsBytes ws)[4 * j + i]? = some (ws[j].extractLsb' (8 * i) 8) := by
  induction ws generalizing j with
  | nil => simp at hj
  | cons w ws ih =>
    cases j with
    | zero =>
      have : i = 0 ∨ i = 1 ∨ i = 2 ∨ i = 3 := by omega
      rcases this with rfl | rfl | rfl | rfl <;> simp [wordsBytes, wordBytes]
    | succ j =>
      have h := ih j (by simpa using hj)
      have e : 4 * (j + 1) + i = (4 * j + i) + 4 := by omega
      rw [e]
      simpa [wordsBytes, wordBytes] using h

theorem memPutWords_wf (m : Memory) (a : Nat) (ws : List Word) (h : Memory.wf m = true) :
    Memory.wf (memPutWords m a ws) = true := memPutBlock_wf m a _ h

theorem memPutWords_inBuffers (m : Memory) (a : Nat) (ws : List Word) (h : Memory.inBuffers m = true)
    (hb : ∀ x, a ≤ x → x < a + 4 * ws.length → inBuffer x = true) :
    Memory.inBuffers (memPutWords m a ws) = true :=
  memPutBlock_inBuffers m a _ h (by simpa using hb)

theorem word_of_bytes (w : Word) :
    w.extractLsb' 24 8 ++ w.extractLsb' 16 8 ++ w.extractLsb' 8 8 ++ w.extractLsb' 0 8 = w := by
  apply BitVec.eq_of_getLsbD_eq
  intro i hi
  simp only [BitVec.getLsbD_append, BitVec.getLsbD_extractLsb']
  rcases Nat.lt_or_ge i 8 with h0 | h0
  · simp [h0]
  · rcases Nat.lt_or_ge i 16 with h1 | h1
    · have e : i - 8 < 8 := by omega
      have e2 : 8 + (i - 8) = i := by omega
      simp [show ¬ i < 8 by omega, e, e2]
    · rcases Nat.lt_or_ge i 24 with h2 | h2
      · have e : i - 8 - 8 < 8 := by omega
        have e2 : 16 + (i - 8 - 8) = i := by omega
        simp [show ¬ i < 8 by omega, show ¬ i - 8 < 8 by omega, e, e2]
      · have e : i - 8 - 8 - 8 < 8 := by omega
        have e2 : 24 + (i - 8 - 8 - 8) = i := by omega
        simp [show ¬ i < 8 by omega, show ¬ i - 8 < 8 by omega, show ¬ i - 8 - 8 < 8 by omega, e, e2]

/-- Two states that list the same byte at an address, since the same power-on, read the same byte there. -/
theorem byteAt_congr (s t : State) (a : Nat) (hm : memGet? t.mem a = memGet? s.mem a)
    (hp : t.powerOns = s.powerOns) : t.byteAt a = s.byteAt a := by
  unfold State.byteAt
  rw [hm, hp]

/-- What a word write can do, said once for any state whose memory is the written one: the words read back, and every
byte outside them reads as before. -/
theorem putWords_byteAt_outside (s t : State) (base : Nat) (ws : List Word) (a : Nat)
    (hm : t.mem = memPutWords s.mem base ws) (hp : t.powerOns = s.powerOns)
    (h : a < base ∨ base + 4 * ws.length ≤ a) : t.byteAt a = s.byteAt a := by
  refine byteAt_congr s t a ?_ hp
  rw [hm, memPutWords, memGet?_memPutBlock_outside _ _ _ _ (by simpa using h)]

theorem putWords_byteAt_inside (s t : State) (base : Nat) (ws : List Word) (j : Nat) (hj : j < ws.length)
    (i : Nat) (hi : i < 4) (hm : t.mem = memPutWords s.mem base ws) :
    t.byteAt (base + 4 * j + i) = ws[j].extractLsb' (8 * i) 8 := by
  unfold State.byteAt
  rw [hm, memPutWords, memGet?_memPutBlock_inside _ _ _ _ (by omega) (by simp; omega)]
  rw [show base + 4 * j + i - base = 4 * j + i by omega, wordsBytes_get ws j hj i hi]
  rfl

theorem putWords_wordAt_inside (s t : State) (base : Nat) (ws : List Word) (j : Nat) (hj : j < ws.length)
    (hm : t.mem = memPutWords s.mem base ws) : t.wordAt (base + 4 * j) = ws[j] := by
  have h := putWords_byteAt_inside s t base ws j hj
  have h0 := h 0 (by omega) hm
  have h1 := h 1 (by omega) hm
  have h2 := h 2 (by omega) hm
  have h3 := h 3 (by omega) hm
  simp only [Nat.add_zero, Nat.mul_zero, Nat.mul_one] at h0 h1 h2 h3
  unfold State.wordAt
  rw [h0, h1, h2, h3]
  exact word_of_bytes _

theorem wordAt_congr (s t : State) (a : Nat) (h : ∀ i, i < 4 → t.byteAt (a + i) = s.byteAt (a + i)) :
    t.wordAt a = s.wordAt a := by
  have h0 := h 0 (by omega)
  have h1 := h 1 (by omega)
  have h2 := h 2 (by omega)
  have h3 := h 3 (by omega)
  simp only [Nat.add_zero] at h0
  unfold State.wordAt
  rw [h0, h1, h2, h3]

theorem putWords_wordAt_outside (s t : State) (base : Nat) (ws : List Word) (a : Nat)
    (hm : t.mem = memPutWords s.mem base ws) (hp : t.powerOns = s.powerOns)
    (h : a + 4 ≤ base ∨ base + 4 * ws.length ≤ a) : t.wordAt a = s.wordAt a :=
  wordAt_congr s t a fun i hi => putWords_byteAt_outside s t base ws (a + i) hm hp (by omega)

end Sys2Proof.Machine
end

