-- ==== Sys2Proof/Laws/Ops.lean ====
section
/-! SUPPORT. For each shared operation, what it can do, said once: the flags, the two ends of a command, storing results,
acceptance, writes while idle, and the numeric kernels. -/

namespace Sys2Proof.Machine

/-! ## Flags -/

@[simp] theorem setBits_getLsbD (w k : Word) (i : Nat) :
    (setBits w k).getLsbD i = (w.getLsbD i || k.getLsbD i) := by simp [setBits]

@[simp] theorem clearBits_getLsbD (w k : Word) (i : Nat) (hi : i < 32) :
    (clearBits w k).getLsbD i = (w.getLsbD i && !k.getLsbD i) := by simp [clearBits, hi]

/-- A flag as a bit of STATUS. -/
theorem busy_eq (s : State) : s.busy = s.csr.status.getLsbD 0 := rfl
theorem done_eq (s : State) : s.done = s.csr.status.getLsbD 1 := rfl
theorem err_eq (s : State) : s.err = s.csr.status.getLsbD 2 := rfl
theorem sat_eq (s : State) : s.sat = s.csr.status.getLsbD 3 := rfl
theorem cmdOvr_eq (s : State) : s.cmdOvr = s.csr.status.getLsbD 4 := rfl
theorem wrBusy_eq (s : State) : s.wrBusy = s.csr.status.getLsbD 5 := rfl
theorem errMulti_eq (s : State) : s.errMulti = s.csr.status.getLsbD 6 := rfl

/-- The one bit each flag mask holds. -/
theorem fBusy_bits (i : Nat) : fBusy.getLsbD i = decide (i = 0) := by
  rcases Nat.lt_or_ge i 32 with h | h
  · revert i; decide
  · rw [BitVec.getLsbD_of_ge _ _ h]; simp; omega
theorem fDone_bits (i : Nat) : fDone.getLsbD i = decide (i = 1) := by
  rcases Nat.lt_or_ge i 32 with h | h
  · revert i; decide
  · rw [BitVec.getLsbD_of_ge _ _ h]; simp; omega
theorem fErr_bits (i : Nat) : fErr.getLsbD i = decide (i = 2) := by
  rcases Nat.lt_or_ge i 32 with h | h
  · revert i; decide
  · rw [BitVec.getLsbD_of_ge _ _ h]; simp; omega
theorem fSat_bits (i : Nat) : fSat.getLsbD i = decide (i = 3) := by
  rcases Nat.lt_or_ge i 32 with h | h
  · revert i; decide
  · rw [BitVec.getLsbD_of_ge _ _ h]; simp; omega
theorem fErrMulti_bits (i : Nat) : fErrMulti.getLsbD i = decide (i = 6) := by
  rcases Nat.lt_or_ge i 32 with h | h
  · revert i; decide
  · rw [BitVec.getLsbD_of_ge _ _ h]; simp; omega

/-! ## The two ends of a command -/

/-- After success, bit by bit (R335). -/
theorem complete_status_bit (s : State) (i : Nat) (hi : i < 32) :
    s.complete.csr.status.getLsbD i =
      if i = 0 then false else if i = 1 then true else s.csr.status.getLsbD i := by
  simp only [complete_csr, setBits_getLsbD, clearBits_getLsbD _ _ _ hi, fBusy_bits, fDone_bits]
  by_cases h0 : i = 0 <;> by_cases h1 : i = 1 <;> simp_all

/-- STATUS after the error record: only ERR_MULTI can have changed (R286, R289). -/
theorem recordError_status_bit (c : Csrs) (e : CmdError) (cmd : Word) (i : Nat) :
    (c.recordError e cmd).status.getLsbD i =
      if i = 6 then c.status.getLsbD 6 || c.status.getLsbD 2 else c.status.getLsbD i := by
  unfold Csrs.recordError
  cases h : c.status.getLsbD 2
  · rw [if_neg (by decide)]
    by_cases h6 : i = 6
    · rw [if_pos h6, Bool.or_false, h6]
    · rw [if_neg h6]
  · rw [if_pos rfl]
    simp only [setBits_getLsbD, fErrMulti_bits]
    by_cases h6 : i = 6 <;> simp [h6]

/-- After an error, bit by bit (R286, R289). -/
theorem raiseError_status_bit (s : State) (e : CmdError) (i : Nat) (hi : i < 32) :
    (s.raiseError e).csr.status.getLsbD i =
      if i = 0 then false else if i = 1 then true else if i = 2 then true
      else if i = 6 then s.csr.status.getLsbD 6 || s.csr.status.getLsbD 2
      else s.csr.status.getLsbD i := by
  simp only [raiseError_csr, clearBits_getLsbD _ _ _ hi, setBits_getLsbD, BitVec.getLsbD_or, fBusy_bits,
    fErr_bits, fDone_bits, recordError_status_bit]
  by_cases h0 : i = 0
  · simp [h0]
  by_cases h1 : i = 1
  · simp [h1]
  by_cases h2 : i = 2
  · simp [h2]
  by_cases h6 : i = 6
  · simp [h6]
  · simp [h0, h1, h2, h6]

/-- Everything an error does to the CSRs but STATUS: the record is written only while ERR = 0 (R286, R289). -/
theorem raiseError_record (s : State) (e : CmdError) :
    (s.raiseError e).csr.errCode = (if s.err then s.csr.errCode else errorCode e) ∧
    (s.raiseError e).csr.errCmd = (if s.err then s.csr.errCmd else s.pendWord) := by
  by_cases h : s.err = true
  · have h' : s.csr.status.getLsbD 2 = true := h
    simp only [raiseError_csr, Csrs.recordError, if_pos h, if_pos h', and_self]
  · have h' : ¬ s.csr.status.getLsbD 2 = true := h
    simp only [raiseError_csr, Csrs.recordError, if_neg h, if_neg h', and_self]

/-- Every CSR that holds neither flags nor the error record is untouched by an error (R286). -/
theorem raiseError_csrValue (s : State) (e : CmdError) (c : Csr)
    (h : c ≠ .status ∧ c ≠ .errCode ∧ c ≠ .errCmd) : (s.raiseError e).csrValue c = s.csrValue c := by
  obtain ⟨h1, h2, h3⟩ := h
  cases c <;> first | contradiction | skip
  all_goals
    simp only [State.csrValue, raiseError_csr, Csrs.recordError]
    try (split <;> rfl)

/-- How a command ends: it never faults or refuses, and it answers the error's state or the completed one. -/
theorem finishCommand_next (s : State) (check : Option CmdError) (body : State → State) :
    finishCommand s check body =
      .next (match check with | some e => s.raiseError e | none => (body s).complete) := by
  cases check <;> rfl

theorem finishCommand_cases (s t : State) (check : Option CmdError) (body : State → State)
    (h : finishCommand s check body = .next t) :
    (∃ e, check = some e ∧ t = s.raiseError e) ∨ (check = none ∧ t = (body s).complete) := by
  cases check with
  | some e => exact .inl ⟨e, rfl, by simpa [finishCommand] using h.symm⟩
  | none => exact .inr ⟨rfl, by simpa [finishCommand] using h.symm⟩

/-! ## Storing results -/

theorem sat32_range (v : Int) : s32Min ≤ sat32 v ∧ sat32 v ≤ s32Max := by
  unfold sat32 s32Min s32Max
  split
  · omega
  · split <;> omega

/-- A stored word, read as s32, is the saturated value (R140). -/
theorem storedWord_toInt (v : Int) : (storedWord v).toInt = sat32 v := by
  have h := sat32_range v
  unfold s32Min s32Max at h
  unfold storedWord
  rw [BitVec.toInt_ofInt]
  exact Int.bmod_eq_of_le (by omega) (by omega)

theorem sat32_of_not_saturates (v : Int) (h : saturates v = false) : sat32 v = v := by
  unfold saturates at h
  simp only [Bool.or_eq_false_iff, decide_eq_false_iff_not] at h
  unfold sat32
  rw [if_neg h.1, if_neg h.2]

/-- The words `storeResults` writes read back as the saturated results. -/
theorem storeResults_wordAt (s t : State) (base : Nat) (vs : List Int) (j : Nat) (hj : j < vs.length)
    (hm : t.mem = (s.storeResults base vs).mem) : t.wordAt (base + 4 * j) = storedWord vs[j] := by
  have h := putWords_wordAt_inside s t base (vs.map storedWord) j (by simpa using hj) hm
  simpa using h

/-- Every byte outside the words `storeResults` writes reads as before. -/
theorem storeResults_byteAt (s t : State) (base : Nat) (vs : List Int) (a : Nat)
    (hm : t.mem = (s.storeResults base vs).mem) (hp : t.powerOns = s.powerOns)
    (h : a < base ∨ base + 4 * vs.length ≤ a) : t.byteAt a = s.byteAt a :=
  putWords_byteAt_outside s t base (vs.map storedWord) a hm hp (by simpa using h)

/-- `storeResults` sets SAT if a result saturates, and changes no other STATUS bit. -/
theorem storeResults_status_bit (s : State) (base : Nat) (vs : List Int) (i : Nat) :
    (s.storeResults base vs).csr.status.getLsbD i =
      if i = 3 then s.csr.status.getLsbD 3 || vs.any saturates else s.csr.status.getLsbD i := by
  simp only [storeResults_csr]
  by_cases h : vs.any saturates
  · simp only [h, if_true, setBits_getLsbD, fSat_bits]
    by_cases h3 : i = 3 <;> simp [h3]
  · by_cases h3 : i = 3
    · subst h3; simp [h]
    · simp [h, h3]

/-! ## Acceptance and writes -/

theorem acceptCommand_cases (s : State) (w : Word) :
    (s.busy = true ∧ s.acceptCommand w = s.raiseFlags fCmdOvr) ∨
    (s.busy = false ∧ s.acceptCommand w = s.latchCommand w) := by
  unfold State.acceptCommand
  cases h : s.busy <;> simp

theorem writeIdle_cases (s : State) (f : State → State) :
    (s.busy = true ∧ s.writeIdle f = s.raiseFlags fWrBusy) ∨ (s.busy = false ∧ s.writeIdle f = f s) := by
  unfold State.writeIdle
  cases h : s.busy <;> simp

/-! ## Generators -/

theorem rngAfter_add (m n : Nat) (g : Word) : rngAfter (m + n) g = rngAfter n (rngAfter m g) := by
  induction m generalizing g with
  | zero => simp [rngAfter]
  | succ m ih => rw [Nat.succ_add]; exact ih (xs32 g)

theorem rngAfter_succ (n : Nat) (g : Word) : rngAfter (n + 1) g = xs32 (rngAfter n g) := by
  rw [rngAfter_add n 1 g]; rfl

@[simp] theorem drawnBits_length (n : Nat) (g : Word) : (drawnBits n g).length = n := by
  induction n generalizing g with
  | zero => rfl
  | succ n ih => simp [drawnBits, ih]

/-- Bit i of the drawn bits is the top bit of the (i+1)-th generator state (R171). -/
theorem drawnBits_getElem (n : Nat) (g : Word) (i : Nat) (h : i < (drawnBits n g).length) :
    (drawnBits n g)[i] = (rngAfter (i + 1) g).getLsbD 31 := by
  induction n generalizing g i with
  | zero => simp [drawnBits] at h
  | succ n ih =>
    cases i with
    | zero => rfl
    | succ i =>
      simp only [drawnBits, List.getElem_cons_succ]
      rw [ih (xs32 g) i (by simpa [drawnBits] using h)]
      rfl

@[simp] theorem noisySamples_length (s : State) (n m : Nat) (g : Word) : (noisySamples s n m g).length = n := by
  induction n generalizing m g with
  | zero => rfl
  | succ n ih => simp [noisySamples, ih]

/-- Sample i of the noisy samples: its two draws are the (2i+1)-th and the (2i+2)-th generator states (R222). -/
theorem noisySamples_getElem (s : State) (n m : Nat) (g : Word) (i : Nat)
    (h : i < (noisySamples s n m g).length) :
    (noisySamples s n m g)[i] =
      s.sample (m + i) + noiseval s.sigmaVal (rngAfter (2 * i + 1) g) (rngAfter (2 * i + 2) g) := by
  induction n generalizing m g i with
  | zero => simp [noisySamples] at h
  | succ n ih =>
    cases i with
    | zero => simp [noisySamples, draw, rngAfter]
    | succ i =>
      simp only [noisySamples, List.getElem_cons_succ]
      rw [ih (m + 1) (draw (draw g)) i (by simpa [noisySamples] using h)]
      have e : m + 1 + i = m + (i + 1) := by omega
      have e1 : rngAfter (2 * i + 1) (draw (draw g)) = rngAfter (2 * (i + 1) + 1) g := by
        exact (congrArg (rngAfter · g) (show 2 * (i + 1) + 1 = 2 + (2 * i + 1) by omega)).symm ▸
          (rngAfter_add 2 (2 * i + 1) g).symm
      have e2 : rngAfter (2 * i + 2) (draw (draw g)) = rngAfter (2 * (i + 1) + 2) g := by
        exact (congrArg (rngAfter · g) (show 2 * (i + 1) + 2 = 2 + (2 * i + 2) by omega)).symm ▸
          (rngAfter_add 2 (2 * i + 2) g).symm
      rw [e, e1, e2]

/-! ## Bit packing -/

theorem bitsNat_testBit (bs : List Bool) (i : Nat) : (bitsNat bs).testBit i = bs.getD i false := by
  induction bs generalizing i with
  | nil => simp [bitsNat]
  | cons b bs ih =>
    cases i with
    | zero => cases b <;> simp [bitsNat, Nat.testBit_zero, Nat.add_mod]
    | succ i =>
      have e : (bitsNat (b :: bs)) / 2 = bitsNat bs := by
        cases b
        · show (0 + 2 * bitsNat bs) / 2 = bitsNat bs; omega
        · show (1 + 2 * bitsNat bs) / 2 = bitsNat bs; omega
      rw [Nat.testBit_succ, e, ih]
      simp

/-- A merged word has the new bits below and keeps the old bits above (R171). -/
theorem mergeBits_getLsbD (old : Word) (bs : List Bool) (i : Nat) (hi : i < 32) :
    (mergeBits old bs).getLsbD i = if i < bs.length then bs.getD i false else old.getLsbD i := by
  unfold mergeBits
  rw [BitVec.getLsbD_or, BitVec.getLsbD_shiftLeft, BitVec.getLsbD_ofNat, bitsNat_testBit]
  by_cases hb : i < bs.length
  · simp [hb, hi]
  · have hge : bs.length ≤ i := by omega
    have e : bs.length + (i - bs.length) = i := by omega
    simp [hb, hi, BitVec.getLsbD_ushiftRight, e]

end Sys2Proof.Machine
end

