-- ==== Sys2Proof/Laws/Checks.lean ====
section
/-! SUPPORT. What a command's passing checks say about its counts (spec/20_memory.md R94), and that the words it writes
lie in its buffer. -/

namespace Sys2Proof.Machine

theorem genbitsCheck_none {s : State} (h : genbitsCheck s = none) : 1 ≤ s.nbitsVal ∧ s.nbitsVal ≤ 4096 := by
  unfold genbitsCheck Config.bitCap at h
  split_ifs at h
  omega

theorem bps_cases (c : Scheme) : bps c = 1 ∨ bps c = 2 ∨ bps c = 4 := by cases c <;> simp [bps]

theorem mapCheck_none {c : Scheme} {s : State} (h : mapCheck c s = none) :
    bps c ≤ s.nbitsVal ∧ s.nbitsVal % bps c = 0 ∧ s.nbitsVal ≤ 4096 := by
  unfold mapCheck Config.bitCap at h
  split_ifs at h
  omega

theorem synthCheck_none {s : State} (h : synthCheck s = none) :
    kindOf s.csr.symInfo ≠ 0 ∧ 1 ≤ s.nspsVal ∧ synthCount s ≤ 65536 := by
  unfold synthCheck Config.sigCap at h
  split_ifs at h
  unfold synthCount
  omega

theorem noiseCheck_none {s : State} (h : noiseCheck s = none) :
    0 ≤ s.sigmaVal ∧ kindOf s.csr.sigInfo ≠ 0 ∧ kindOf s.csr.sigInfo ≠ 3 ∧ s.sigCountVal ≤ 65536 := by
  unfold noiseCheck Config.sigCap at h
  split_ifs at h
  omega

theorem demodCheck_none {s : State} (h : demodCheck s = none) :
    kindOf s.csr.sigInfo ≠ 0 ∧ kindOf s.csr.sigInfo ≠ 3 ∧
      (kindOf s.csr.sigInfo ≠ 2 →
        s.sigCountVal ≤ 65536 ∧ 1 ≤ s.nspsVal ∧ s.sigCountVal % s.nspsVal = 0 ∧ demodCount s ≤ 4096) := by
  unfold demodCheck Config.sigCap Config.bitCap at h
  split_ifs at h <;> unfold demodCount <;> omega

theorem runCheck_none {c : Scheme} {s : State} (h : runCheck c s = none) :
    bps c ≤ s.nbitsVal ∧ s.nbitsVal % bps c = 0 ∧ s.nbitsVal ≤ 4096 ∧ 1 ≤ s.nspsVal ∧
      mapCount c s * s.nspsVal ≤ 65536 ∧ 0 ≤ s.sigmaVal := by
  unfold runCheck Config.sigCap Config.bitCap at h
  split_ifs at h
  unfold mapCount
  omega

theorem mapCount_le (c : Scheme) (s : State) : mapCount c s ≤ s.nbitsVal := Nat.div_le_self _ _

/-- The addresses of the first `n` words of a buffer, `n` at most its size, are buffer addresses (R81). -/
theorem bitAddr_inBuffer (x n : Nat) (h : n ≤ 128) (h1 : Config.bitBase ≤ x)
    (h2 : x < Config.bitBase + 4 * n) : inBuffer x = true := by
  have h3 : 4096 ≤ x := h1
  have h4 : x < 4096 + 4 * n := h2
  have : (decide (Config.bitBase ≤ x) && decide (x < Config.bitBase + 4 * Config.bitWords)) = true := by
    rw [Bool.and_eq_true, decide_eq_true_eq, decide_eq_true_eq]
    exact ⟨h1, show x < 4096 + 4 * 128 by omega⟩
  unfold inBuffer; rw [this]; simp

theorem symAddr_inBuffer (x n : Nat) (h : n ≤ 8192) (h1 : Config.symBase ≤ x)
    (h2 : x < Config.symBase + 4 * n) : inBuffer x = true := by
  have h3 : 65536 ≤ x := h1
  have h4 : x < 65536 + 4 * n := h2
  have : (decide (Config.symBase ≤ x) && decide (x < Config.symBase + 4 * Config.symWords)) = true := by
    rw [Bool.and_eq_true, decide_eq_true_eq, decide_eq_true_eq]
    exact ⟨h1, show x < 65536 + 4 * 8192 by omega⟩
  unfold inBuffer; rw [this]; simp

theorem estAddr_inBuffer (x n : Nat) (h : n ≤ 8192) (h1 : Config.estBase ≤ x)
    (h2 : x < Config.estBase + 4 * n) : inBuffer x = true := by
  have h3 : 98304 ≤ x := h1
  have h4 : x < 98304 + 4 * n := h2
  have : (decide (Config.estBase ≤ x) && decide (x < Config.estBase + 4 * Config.estWords)) = true := by
    rw [Bool.and_eq_true, decide_eq_true_eq, decide_eq_true_eq]
    exact ⟨h1, show x < 98304 + 4 * 8192 by omega⟩
  unfold inBuffer; rw [this]; simp

theorem sigAddr_inBuffer (x n : Nat) (h : n ≤ 65536) (h1 : Config.sigBase ≤ x)
    (h2 : x < Config.sigBase + 4 * n) : inBuffer x = true := by
  have h3 : 262144 ≤ x := h1
  have h4 : x < 262144 + 4 * n := h2
  have : (decide (Config.sigBase ≤ x) && decide (x < Config.sigBase + 4 * Config.sigWords)) = true := by
    rw [Bool.and_eq_true, decide_eq_true_eq, decide_eq_true_eq]
    exact ⟨h1, show x < 262144 + 4 * 65536 by omega⟩
  unfold inBuffer; rw [this]; simp

end Sys2Proof.Machine
end

