-- ==== Sys2Proof/Laws/Fields.lean ====
section
/-! SUPPORT. The fields of the info registers, the masks of reserved bits, and the table index, each in the form a
statement uses it. -/

namespace Sys2Proof.Machine

/-- Field KIND as a remainder. -/
theorem kindOf_eq (w : Word) : kindOf w = w.toNat % 4 := by
  unfold kindOf; simp

/-- Field SCHEME as a quotient and a remainder. -/
theorem schemeOf_eq (w : Word) : schemeOf w = w.toNat / 16 % 8 := by
  unfold schemeOf; simp [Nat.shiftRight_eq_div_pow]

/-- A word has no bit outside a mask exactly when each of those bits is clear. -/
theorem maskClear_iff (w m : Word) :
    w &&& ~~~m = 0#32 ↔ ∀ i, i < 32 → m.getLsbD i = false → w.getLsbD i = false := by
  constructor
  · intro h i hi hm
    have := congrArg (fun x => BitVec.getLsbD x i) h
    rw [BitVec.getLsbD_and, BitVec.getLsbD_not, hm] at this
    simpa [hi] using this
  · intro h
    apply BitVec.eq_of_getLsbD_eq
    intro i hi
    rw [BitVec.getLsbD_and, BitVec.getLsbD_not]
    cases hm : m.getLsbD i
    · rw [h i hi hm]; simp
    · simp

/-- Under a mask that lies in the low seven bits, only those bits of a word count. -/
theorem lowSeven_and (w m : Word) (hm : ∀ i, i < 32 → 7 ≤ i → m.getLsbD i = false) :
    (w.extractLsb' 0 7).zeroExtend 32 &&& m = w &&& m := by
  apply BitVec.eq_of_getLsbD_eq
  intro i hi
  by_cases h : i < 7
  · simp [hi, h]
  · rw [BitVec.getLsbD_and, BitVec.getLsbD_and, hm i hi (by omega)]; simp

theorem lowSeven_fields (w : Word) :
    (w.extractLsb' 0 7).toNat % 4 = w.toNat % 4 ∧
      (w.extractLsb' 0 7).toNat / 16 % 8 = w.toNat / 16 % 8 := by
  simp only [BitVec.extractLsb'_toNat, Nat.shiftRight_zero, Nat.reducePow]; omega

/-- Carrying KIND and SCHEME over to another info register is masking (R202). -/
theorem infoWord_carry (w : Word) : infoWord (kindOf w) (schemeOf w) = w &&& 0x73#32 := by
  rw [kindOf_eq, schemeOf_eq]; unfold infoWord
  have key : ∀ v : BitVec 7,
      BitVec.ofNat 32 (v.toNat % 4 + 16 * (v.toNat / 16 % 8)) = v.zeroExtend 32 &&& 0x73#32 := by
    decide +kernel
  have := key (w.extractLsb' 0 7)
  rwa [(lowSeven_fields w).1, (lowSeven_fields w).2, lowSeven_and _ _ (by decide)] at this

/-- EST_INFO of an EMPTY result (R243). -/
theorem infoWord_empty (w : Word) : infoWord 2 (schemeOf w) = 2#32 ||| (w &&& 0x70#32) := by
  rw [schemeOf_eq]; unfold infoWord
  have key : ∀ v : BitVec 7,
      BitVec.ofNat 32 (2 + 16 * (v.toNat / 16 % 8)) = 2#32 ||| (v.zeroExtend 32 &&& 0x70#32) := by
    decide +kernel
  have := key (w.extractLsb' 0 7)
  rwa [(lowSeven_fields w).2, lowSeven_and _ _ (by decide)] at this

/-- Masking to bit 0. -/
theorem and_one (c : Word) : c &&& 1#32 = if c.getLsbD 0 then 1#32 else 0#32 := by
  apply BitVec.eq_of_getLsbD_eq
  intro i hi
  rcases Nat.eq_zero_or_pos i with rfl | h0
  · cases h : c.getLsbD 0 <;> simp only [BitVec.getLsbD_and, h] <;> decide
  · have h1 : (1#32).getLsbD i = false := by revert h0; revert hi; revert i; decide
    rw [BitVec.getLsbD_and, h1]
    cases c.getLsbD 0 <;> simp
    omega

/-- EST_INFO of a VALID result (R241). -/
theorem estInfoValid_eq (s : State) :
    estInfoValid s = 1#32 ||| (s.csr.sigInfo &&& 0x70#32) ||| ((s.csr.ctrl &&& 1#32) <<< 8) := by
  unfold estInfoValid State.dgain
  rw [schemeOf_eq, and_one]
  have key : ∀ (b : Bool) (v : BitVec 7),
      BitVec.ofNat 32 (1 + 16 * (v.toNat / 16 % 8) + if b then 256 else 0) =
        1#32 ||| (v.zeroExtend 32 &&& 0x70#32) ||| ((if b then 1#32 else 0#32) <<< 8) := by
    decide +kernel
  have := key (s.csr.ctrl.getLsbD 0) (s.csr.sigInfo.extractLsb' 0 7)
  rwa [(lowSeven_fields _).2, lowSeven_and _ _ (by decide)] at this

/-- The table index of a phase, on numbers (R145, R146). -/
theorem lutIndex_phase (m : Nat) (f : Word) :
    lutIndex (phase m f) = m * f.toNat % 4294967296 / 4194304 := by
  unfold lutIndex phase; simp

end Sys2Proof.Machine
end

