-- ==== Sys2Proof/Laws/PerInstr.lean ====
section
/-! SUPPORT. Per-instruction families: one lemma for each constructor of `Instr`. -/

namespace Sys2Proof.Laws.EncodesLegal

/-- The instruction's encoding is a legal packet (30_encoding.md R115, R116, R119, R124). -/
def Statement (i : Instr) : Prop := (encode i).wf = true

theorem nop : Statement .nop := rfl
theorem genbits : Statement .genbits := rfl
theorem mapAsk : Statement .mapAsk := rfl
theorem mapFsk : Statement .mapFsk := rfl
theorem mapBpsk : Statement .mapBpsk := rfl
theorem mapQpsk : Statement .mapQpsk := rfl
theorem mapQam16 : Statement .mapQam16 := rfl
theorem synth : Statement .synth := rfl
theorem noise : Statement .noise := rfl
theorem demod : Statement .demod := rfl
theorem runAsk : Statement .runAsk := rfl
theorem runFsk : Statement .runFsk := rfl
theorem runBpsk : Statement .runBpsk := rfl
theorem runQpsk : Statement .runQpsk := rfl
theorem runQam16 : Statement .runQam16 := rfl
theorem sreset : Statement .sreset := rfl
theorem busRd (a : BusAddr) : Statement (.busRd a) := rfl
theorem busWr (a : BusAddr) (d : Word) : Statement (.busWr a d) := rfl

end Sys2Proof.Laws.EncodesLegal
end

