-- ==== Sys2Proof/Laws/Step.lean ====
section
/-! SUPPORT. What a step can do, said once: the cases of `step`, of the engine's and the host's step, and of `exec`; and
what no instruction changes. -/

namespace Sys2Proof.Machine

/-- Everything a step that goes on can have done. -/
theorem step_cases {s t : State} (h : step s = .next t) :
    ((s.turns = [] ∨ s.turns.head? = some .engine) ∧ engineStep s.beginStep = .next t) ∨
    (∃ b rest, s.turns = .bus b :: rest ∧ hostStep b s.beginStep = .next t) ∨
    (s.turns.head? = some .resetAssert ∧ t = s.beginStep.assertReset) ∨
    (s.turns.head? = some .resetRelease ∧ t = s.beginStep.releaseReset) ∨
    (s.turns.head? = some .powerCycle ∧ t = s.beginStep.cyclePower) := by
  unfold step at h
  split at h <;> rename_i e
  · exact .inl ⟨.inl e, h⟩
  · exact .inl ⟨.inr (by rw [e]; rfl), h⟩
  · exact .inr (.inl ⟨_, _, e, h⟩)
  · injection h with h; exact .inr (.inr (.inl ⟨by rw [e]; rfl, h.symm⟩))
  · injection h with h; exact .inr (.inr (.inr (.inl ⟨by rw [e]; rfl, h.symm⟩)))
  · injection h with h; exact .inr (.inr (.inr (.inr ⟨by rw [e]; rfl, h.symm⟩)))

/-- Everything the engine's step can have done (R335). -/
theorem engineStep_cases {s t : State} (h : engineStep s = .next t) :
    (s.busy = false ∧ t = s) ∨
    (s.busy = true ∧ ∃ w i, s.pend = some w ∧ decode (.command w) = .instr i ∧ exec i s = .next t) ∨
    (s.busy = true ∧ ∃ w, s.pend = some w ∧ (∀ i, decode (.command w) ≠ .instr i) ∧
      (t = s.raiseError .illegalCmd ∨ t = s.raiseError .scheme)) := by
  unfold engineStep at h
  split at h
  · rename_i hb
    split at h
    · cases h
    · rename_i w hp
      split at h
      · rename_i i hd; exact .inr (.inl ⟨hb, w, i, hp, hd, h⟩)
      · rename_i hd; injection h with h
        exact .inr (.inr ⟨hb, w, hp, hd ▸ fun i e => Decoded.noConfusion e, .inl h.symm⟩)
      · rename_i hd; injection h with h
        exact .inr (.inr ⟨hb, w, hp, hd ▸ fun i e => Decoded.noConfusion e, .inr h.symm⟩)
      · rename_i hd; injection h with h
        exact .inr (.inr ⟨hb, w, hp, hd ▸ fun i e => Decoded.noConfusion e, .inr h.symm⟩)
  · rename_i hb; injection h with h
    exact .inl ⟨by simpa using hb, h.symm⟩

/-- Everything the host's step can have done (R320). -/
theorem hostStep_cases {b : BusTuple} {s t : State} (h : hostStep b s = .next t) :
    (s.presetn = true ∧ exec (decodeTransaction b) s = .next t) ∨
    (s.presetn = false ∧ t = { s with reply := none }) := by
  unfold hostStep at h
  split at h
  · rename_i hp; exact .inl ⟨hp, h⟩
  · rename_i hp; injection h with h; exact .inr ⟨by simpa using hp, h.symm⟩

/-- The two ways RUN.s can go on (R261). -/
theorem runCommand_cases {c : Scheme} {s t : State} (h : runCommand c s = .next t) :
    (∃ e, runCheck c s = some e ∧ t = s.raiseError e) ∨ (runCheck c s = none ∧ t = (runBody c s).complete) := by
  unfold runCommand at h
  split at h
  · cases h
  · exact finishCommand_cases _ _ _ _ h

/-- The two ways NOISE can go on (R221). -/
theorem execNoise_cases {s t : State} (h : execNoise s = .next t) :
    (∃ e, noiseCheck s = some e ∧ t = s.raiseError e) ∨ (noiseCheck s = none ∧ t = (noiseBody s).complete) := by
  unfold execNoise at h
  split at h
  · cases h
  · exact finishCommand_cases _ _ _ _ h

/-- What the bodies of NOISE and DEMOD keep, whichever of their two forms runs. -/
theorem noiseBody_keeps (s : State) :
    (noiseBody s).pend = s.pend ∧ (noiseBody s).presetn = s.presetn ∧ (noiseBody s).reply = s.reply ∧
      (noiseBody s).turns = s.turns ∧ (noiseBody s).drawIx = s.drawIx ∧ (noiseBody s).powerOns = s.powerOns := by
  unfold noiseBody
  split <;> exact ⟨rfl, rfl, rfl, rfl, rfl, rfl⟩

theorem demodBody_keeps (s : State) :
    (demodBody s).pend = s.pend ∧ (demodBody s).presetn = s.presetn ∧ (demodBody s).reply = s.reply ∧
      (demodBody s).turns = s.turns ∧ (demodBody s).drawIx = s.drawIx ∧ (demodBody s).powerOns = s.powerOns := by
  unfold demodBody
  split <;> exact ⟨rfl, rfl, rfl, rfl, rfl, rfl⟩

/-- The engine's commands, in one lemma: each ends in an error, or with its body's effect, or is SRESET. -/
theorem exec_command_cases {i : Instr} {s t : State} (hr : ∀ a, i ≠ .busRd a) (hw : ∀ a d, i ≠ .busWr a d)
    (h : exec i s = .next t) :
    (∃ e, t = s.raiseError e) ∨ t = s.complete ∨
    (genbitsCheck s = none ∧ t = (genbitsBody s).complete) ∨
    (∃ c, mapCheck c s = none ∧ t = (mapBody c s).complete) ∨
    (synthCheck s = none ∧ t = (synthBody s).complete) ∨
    (noiseCheck s = none ∧ t = (noiseBody s).complete) ∨
    (demodCheck s = none ∧ t = (demodBody s).complete) ∨
    (∃ c, runCheck c s = none ∧ t = (runBody c s).complete) ∨
    (i = .sreset ∧ t = { s with csr := Csrs.reset, pend := none }) := by
  have fin : ∀ check body, finishCommand s check body = .next t →
      (∃ e, t = s.raiseError e) ∨ (check = none ∧ t = (body s).complete) := fun check body e =>
    (finishCommand_cases s t check body e).elim (fun ⟨e, _, h⟩ => .inl ⟨e, h⟩) .inr
  have run : ∀ c, runCommand c s = .next t →
      (∃ e, t = s.raiseError e) ∨ (runCheck c s = none ∧ t = (runBody c s).complete) := fun c e =>
    (runCommand_cases e).elim (fun ⟨e, _, h⟩ => .inl ⟨e, h⟩) .inr
  have map : ∀ c, finishCommand s (mapCheck c s) (mapBody c) = .next t →
      (∃ e, t = s.raiseError e) ∨ (∃ c, mapCheck c s = none ∧ t = (mapBody c s).complete) := fun c e =>
    (fin _ _ e).imp id fun h => ⟨c, h⟩
  have runs : ∀ c, runCommand c s = .next t →
      (∃ e, t = s.raiseError e) ∨ (∃ c, runCheck c s = none ∧ t = (runBody c s).complete) := fun c e =>
    (run c e).imp id fun h => ⟨c, h⟩
  cases i with
  | nop => exact (fin none id h).elim .inl fun h => .inr (.inl h.2)
  | genbits => exact (fin _ _ h).elim .inl fun h => .inr (.inr (.inl h))
  | mapAsk => exact (map .ask h).elim .inl fun h => .inr (.inr (.inr (.inl h)))
  | mapFsk => exact (map .fsk h).elim .inl fun h => .inr (.inr (.inr (.inl h)))
  | mapBpsk => exact (map .bpsk h).elim .inl fun h => .inr (.inr (.inr (.inl h)))
  | mapQpsk => exact (map .qpsk h).elim .inl fun h => .inr (.inr (.inr (.inl h)))
  | mapQam16 => exact (map .qam16 h).elim .inl fun h => .inr (.inr (.inr (.inl h)))
  | synth => exact (fin _ _ h).elim .inl fun h => .inr (.inr (.inr (.inr (.inl h))))
  | noise =>
    rcases execNoise_cases h with ⟨e, _, h⟩ | h
    · exact .inl ⟨e, h⟩
    · exact .inr (.inr (.inr (.inr (.inr (.inl h)))))
  | demod => exact (fin _ _ h).elim .inl fun h => .inr (.inr (.inr (.inr (.inr (.inr (.inl h))))))
  | runAsk => exact (runs .ask h).elim .inl fun h => .inr (.inr (.inr (.inr (.inr (.inr (.inr (.inl h)))))))
  | runFsk => exact (runs .fsk h).elim .inl fun h => .inr (.inr (.inr (.inr (.inr (.inr (.inr (.inl h)))))))
  | runBpsk => exact (runs .bpsk h).elim .inl fun h => .inr (.inr (.inr (.inr (.inr (.inr (.inr (.inl h)))))))
  | runQpsk => exact (runs .qpsk h).elim .inl fun h => .inr (.inr (.inr (.inr (.inr (.inr (.inr (.inl h)))))))
  | runQam16 => exact (runs .qam16 h).elim .inl fun h => .inr (.inr (.inr (.inr (.inr (.inr (.inr (.inl h)))))))
  | sreset =>
    have h : Host.Outcome.next _ = Host.Outcome.next t := h
    injection h with h
    exact .inr (.inr (.inr (.inr (.inr (.inr (.inr (.inr ⟨rfl, h.symm⟩)))))))
  | busRd a => exact absurd rfl (hr a)
  | busWr a d => exact absurd rfl (hw a d)

/-- No instruction is refused. -/
theorem exec_ne_refused (i : Instr) (s : State) (r : Refusal) : exec i s ≠ .refused r := by
  have fin : ∀ check body, finishCommand s check body ≠ .refused r := by
    intro check body; cases check <;> exact fun e => by cases e
  have run : ∀ c, runCommand c s ≠ .refused r := by
    intro c; unfold runCommand; split
    · exact fun e => by cases e
    · exact fin _ _
  cases i with
  | noise =>
    show execNoise s ≠ _
    unfold execNoise
    split
    · exact fun e => by cases e
    · exact fin _ _
  | runAsk => exact run _
  | runFsk => exact run _
  | runBpsk => exact run _
  | runQpsk => exact run _
  | runQam16 => exact run _
  | sreset => exact fun e => by cases e
  | busRd a => exact fun e => by cases e
  | busWr a d => exact fun e => by cases e
  | nop => exact fin none id
  | genbits => exact fin _ _
  | mapAsk => exact fin _ _
  | mapFsk => exact fin _ _
  | mapBpsk => exact fin _ _
  | mapQpsk => exact fin _ _
  | mapQam16 => exact fin _ _
  | synth => exact fin _ _
  | demod => exact fin _ _

end Sys2Proof.Machine
end

