-- ==== Sys2Proof/Tests/Slice0.lean ====
section
/-! SUPPORT. The model's own tests. Expected values are those of spec/95_test_vectors.md (vector ids such as TG1 are its
ids) or are worked out by hand from the rule named. The last part shows, for each statement with hypotheses, a state
that meets them. -/

namespace Sys2Proof.Tests

open Sys2Proof.Machine Sys2Proof.Claims

/-! ## Helpers -/

/-- The reset state with these CSRs. -/
def withCsr (c : Csrs) : State := { State.reset with csr := c }

/-- The state with these words stored from a byte address up. -/
def withWords (s : State) (base : Nat) (ws : List Word) : State := s.putWords base ws

/-- The outcome is a next state with this property. -/
def goesOn (o : Host.Outcome State Fault Refusal) (p : State → Bool) : Bool :=
  match o with
  | .next t => p t
  | _ => false

/-- NBITS = n and stream bits from one word, other CSRs at reset. -/
def bits (n w : Word) : State := withWords (withCsr { Csrs.reset with nbits := n }) 0x01000 [w]

/-- The first `n` words from a byte address up. -/
def wordsAt (s : State) (base n : Nat) : List Word := (List.range n).map fun j => s.wordAt (base + 4 * j)

/-! ## Ill-formed packets are refused (R115, R116) -/

theorem test_wf_rsv : (Packet.command 0x00000080#32).wf = false ∧ decodeCommand 0x00000080#32 = .illegal := by
  decide
theorem test_wf_rsv_top : (Packet.command 0x80000002#32).wf = false ∧ decodeCommand 0x80000002#32 = .illegal := by
  decide
theorem test_wf_op_low : (Packet.command 0x00000007#32).wf = false ∧ decodeCommand 0x00000007#32 = .illegal := by
  decide
theorem test_wf_op_high : (Packet.command 0x0000000E#32).wf = false ∧ decodeCommand 0x0000000E#32 = .illegal := by
  decide
theorem test_wf_scheme_not_taken :
    (Packet.command 0x0000001F#32).wf = false ∧ decodeCommand 0x0000001F#32 = .illegal := by decide
theorem test_wf_map_scheme5 :
    (Packet.command 0x00000052#32).wf = false ∧ decodeCommand 0x00000052#32 = .mapBadScheme := by decide
theorem test_wf_run_scheme7 :
    (Packet.command 0x00000076#32).wf = false ∧ decodeCommand 0x00000076#32 = .runBadScheme := by decide

/-! ## Decoding, with the words of R119 and the tuples of R124 written out -/

theorem test_decode_nop : decode (.command 0x00000000#32) = .instr .nop := by decide
theorem test_decode_genbits : decode (.command 0x00000001#32) = .instr .genbits := by decide
theorem test_decode_mapAsk : decode (.command 0x00000002#32) = .instr .mapAsk := by decide
theorem test_decode_mapFsk : decode (.command 0x00000012#32) = .instr .mapFsk := by decide
theorem test_decode_mapBpsk : decode (.command 0x00000022#32) = .instr .mapBpsk := by decide
theorem test_decode_mapQpsk : decode (.command 0x00000032#32) = .instr .mapQpsk := by decide
theorem test_decode_mapQam16 : decode (.command 0x00000042#32) = .instr .mapQam16 := by decide
theorem test_decode_synth : decode (.command 0x00000003#32) = .instr .synth := by decide
theorem test_decode_noise : decode (.command 0x00000004#32) = .instr .noise := by decide
theorem test_decode_demod : decode (.command 0x00000005#32) = .instr .demod := by decide
theorem test_decode_runAsk : decode (.command 0x00000006#32) = .instr .runAsk := by decide
theorem test_decode_runFsk : decode (.command 0x00000016#32) = .instr .runFsk := by decide
theorem test_decode_runBpsk : decode (.command 0x00000026#32) = .instr .runBpsk := by decide
theorem test_decode_runQpsk : decode (.command 0x00000036#32) = .instr .runQpsk := by decide
theorem test_decode_runQam16 : decode (.command 0x00000046#32) = .instr .runQam16 := by decide
theorem test_decode_sreset : decode (.command 0x0000000F#32) = .instr .sreset := by decide
/-- pwrite 0, paddr 0x40004, pwdata 0xFFFFFFFF ignored. -/
theorem test_decode_busRd :
    decode (.transaction 0x040004FFFFFFFF#53) = .instr (.busRd 0x40004#20) := by decide
/-- pwrite 1, paddr 0x01000, pwdata 0x0000000C. -/
theorem test_decode_busWr :
    decode (.transaction 0x1010000000000C#53) = .instr (.busWr 0x01000#20 0x0000000C#32) := by decide

/-- The table's numbering (spec/opcode_table.json): 32-bit rows are command words, 53-bit rows are bus tuples. -/
theorem test_table_rows :
    decodeTableWord 32 0x46 = some .runQam16 ∧ decodeTableWord 32 0x80 = none ∧
    decodeTableWord 56 0x1010000000000C = some (.busWr 0x01000#20 0x0000000C#32) ∧
    decodeTableWord 56 0 = some (.busRd 0#20) := by decide

/-- `withFetchWord` makes the next step run the instruction: MAP.QPSK with NBITS = 0 ends in E_BITLEN (R181). -/
theorem test_fetch_command :
    goesOn (step (State.reset.withFetchWord 32 0x32)) (fun t =>
      t.csr.status == 0x06#32 && t.csr.errCode == 0x03#32 && t.csr.errCmd == 0x32#32 && t.pend == none) = true := by
  decide
theorem test_fetch_transaction :
    goesOn (step (State.reset.withFetchWord 56 0x10002000000004)) (fun t =>
      t.csr.nbits == 4#32 && t.reply == some (.writeAck .ok)) = true := by decide

/-! ## Kernels (TK1 to TK23) -/

theorem test_sat32 :
    storedWord 2147483648 = 0x7FFFFFFF#32 ∧ saturates 2147483648 = true ∧
    storedWord (-2147483649) = 0x80000000#32 ∧ saturates (-2147483649) = true ∧
    storedWord (-2147483648) = 0x80000000#32 ∧ saturates (-2147483648) = false := by decide
theorem test_floor : shr16 46341 = 0 ∧ shr16 (-46341) = -1 ∧ fdiv (-1) 65536 = -1 := by decide
theorem test_cosLut :
    [0, 1, 2, 3, 32, 64, 85, 86, 128, 170, 171, 192, 255,
      256, 257, 341, 384, 448, 512, 640, 683, 768, 896, 960, 1023].map cosLut =
    [65536, 65535, 65531, 65525, 64277, 60547, 56823, 56621, 46341, 33000, 32652, 25080, 402,
      0, -402, -32652, -46341, -60547, -65536, -46341, -32652, 0, 46341, 60547, 65535] := by
  decide +kernel
theorem test_sinLut : [0, 256, 512, 768].map sinLut = [0, 65536, 0, -65536] := by decide +kernel
theorem test_phase : phase 3 0x20000000#32 = 0x60000000#32 ∧ lutIndex (phase 3 0x20000000#32) = 384 ∧
    phase 5 0x80000000#32 = 0x80000000#32 := by decide
theorem test_toneFcw : toneFcw true 0x20000000#32 0x10000000#32 = 0x30000000#32 ∧
    toneFcw false 0x10000000#32 0x20000000#32 = 0xF0000000#32 := by decide
theorem test_xs32 : xs32 0x12345678#32 = 0x87985AA5#32 ∧ xs32 0x87985AA5#32 = 0x155B24A3#32 ∧
    rngAfter 3 0x80000000#32 = 0xAA914148#32 := by decide
theorem test_rad :
    [0x00000001#32, 0x00000002#32, 0x00000100#32, 0x00010000#32, 0x40000000#32, 0x80000000#32, 0xC0000000#32,
      0xFFFF0000#32, 0xFFFFFFFF#32].map rad =
      [436498, 429624, 378019, 308651, 109125, 77163, 49711, 362, 1] := by decide +kernel
theorem test_noiseval : noiseval 0x8000 0x510C4619#32 0xE02E553E#32 = 35141 := by decide +kernel

/-! ## Memory -/

/-- Word order and byte order (R89): 0x11223344 lies with 0x44 at the lowest address. -/
theorem test_byte_order : wordBytes 0x11223344#32 = [0x44#8, 0x33#8, 0x22#8, 0x11#8] := by decide
/-- A later write replaces the word and keeps the entries in order. -/
theorem test_memory_form :
    Memory.wf (memPutWords (memPutWords [] 0x1004 [1#32]) 0x1000 [2#32, 3#32]) = true ∧
    (memPutWords (memPutWords [] 0x1004 [1#32]) 0x1000 [2#32, 3#32]).length = 8 := by decide

/-! ## Commands -/

/-- TC1. -/
theorem test_nop : goesOn (exec .nop State.reset) (fun t => t.csr.status == 0x02#32) = true := by decide
/-- TG1. -/
theorem test_genbits : goesOn (exec .genbits (bits 8#32 0#32)) (fun t =>
    t.bitWord 0 == 0x000000C9#32 && t.csr.brng == 0xC5186E29#32 && t.csr.status == 0x02#32) = true := by
  decide +kernel
/-- TG8: bits 4 to 31 of the word are kept. -/
theorem test_genbits_keeps :
    goesOn (exec .genbits (withWords (withCsr { Csrs.reset with nbits := 4#32, brng := 1#32 }) 0x01000 [0xFFFFFFF0#32]))
      (fun t => t.bitWord 0 == 0xFFFFFFF4#32 && t.csr.brng == 0x1255994F#32) = true := by decide +kernel
/-- TM1. -/
theorem test_mapAsk : goesOn (exec .mapAsk (bits 2#32 1#32)) (fun t =>
    wordsAt t 0x10000 4 == [0x00010000#32, 0#32, 0#32, 0#32] && t.csr.symCount == 2#32 &&
    t.csr.symInfo == 0x01#32) = true := by decide +kernel
/-- TM3. -/
theorem test_mapFsk : goesOn (exec .mapFsk (bits 2#32 1#32)) (fun t =>
    wordsAt t 0x10000 4 == [1#32, 0#32, 0#32, 0#32] && t.csr.symInfo == 0x12#32) = true := by decide +kernel
/-- TM4. -/
theorem test_mapBpsk : goesOn (exec .mapBpsk (bits 2#32 1#32)) (fun t =>
    wordsAt t 0x10000 4 == [0x00010000#32, 0#32, 0xFFFF0000#32, 0#32] && t.csr.symInfo == 0x21#32) = true := by
  decide +kernel
/-- TM6: the negation of -2^31 saturates and sets SAT. -/
theorem test_mapBpsk_sat :
    goesOn (exec .mapBpsk (withWords (withCsr { Csrs.reset with nbits := 1#32, amp := 0x80000000#32 }) 0x01000 [0#32]))
      (fun t => t.symWord 0 == 0x7FFFFFFF#32 && t.csr.status == 0x0A#32) = true := by decide +kernel
/-- TM7, the Gray table of 1.3: bits 0,0,0,1,1,1,1,0. -/
theorem test_mapQpsk : goesOn (exec .mapQpsk (bits 8#32 0x78#32)) (fun t =>
    wordsAt t 0x10000 8 == [0x00010000#32, 0x00010000#32, 0xFFFF0000#32, 0x00010000#32, 0xFFFF0000#32,
      0xFFFF0000#32, 0x00010000#32, 0xFFFF0000#32] && t.csr.symCount == 4#32) = true := by decide +kernel
/-- TX5: NBITS = 3 is no multiple of 2. -/
theorem test_mapQpsk_bitlen : goesOn (exec .mapQpsk (bits 3#32 0#32)) (fun t =>
    t.csr.status == 0x06#32 && t.csr.errCode == 0x03#32) = true := by decide
/-- TM9: bits 0,0,1,1. -/
theorem test_mapQam16 : goesOn (exec .mapQam16 (bits 4#32 0xC#32)) (fun t =>
    wordsAt t 0x10000 2 == [0x0000F2DC#32, 0xFFFFAF0C#32] && t.csr.symInfo == 0x41#32) = true := by decide +kernel
/-- TM11: bits 1,0,1,0 at the largest amplitude. -/
theorem test_mapQam16_large :
    goesOn (exec .mapQam16 (withWords (withCsr { Csrs.reset with nbits := 4#32, amp := 0x7FFFFFFF#32 }) 0x01000 [5#32]))
      (fun t => wordsAt t 0x10000 2 == [0x86920000#32, 0x86920000#32] && t.csr.status == 0x02#32) = true := by
  decide +kernel

/-- One symbol in SYM_MEM. -/
def symbols (c : Csrs) (ws : List Word) : State := withWords (withCsr c) 0x10000 ws

/-- TS8, its first symbol: BPSK 1 at CAR_FCW = 0x18000000. -/
theorem test_synth_iq :
    goesOn (exec .synth (symbols { Csrs.reset with symCount := 1#32, symInfo := 0x21#32, carFcw := 0x18000000#32 }
      [0x00010000#32, 0#32])) (fun t =>
        wordsAt t 0x40000 8 == [0x00010000#32, 0x0000D4DB#32, 0x000061F8#32, 0xFFFFCE0F#32, 0xFFFF4AFB#32,
          0xFFFF04EB#32, 0xFFFF137D#32, 0xFFFF71C6#32] && t.csr.sigCount == 8#32 && t.csr.sigInfo == 0x21#32) = true := by
  decide +kernel
/-- TS9: FSK 1,0; the second symbol's tone goes on from the global sample index. -/
theorem test_synth_tone :
    goesOn (exec .synth (symbols { Csrs.reset with symCount := 2#32, symInfo := 0x12#32 }
      [1#32, 0#32, 0#32, 0#32])) (fun t =>
        wordsAt t 0x40000 10 == [0x00010000#32, 0x000061F8#32, 0xFFFF4AFB#32, 0xFFFF137D#32, 0#32, 0x0000EC83#32,
          0x0000B505#32, 0xFFFF9E08#32, 0xFFFF0000#32, 0xFFFF137D#32] && t.csr.sigInfo == 0x12#32) = true := by
  decide +kernel

/-- Samples in SIG_MEM. -/
def signal (c : Csrs) (ws : List Word) : State := withWords (withCsr c) 0x40000 ws

/-- TN1. -/
theorem test_noise :
    goesOn (exec .noise (signal { Csrs.reset with sigCount := 4#32, sigInfo := 1#32, sigma := 0x8000#32 }
      [0#32, 0#32, 0#32, 0#32])) (fun t =>
        wordsAt t 0x40000 4 == [0x00008945#32, 0x00009A40#32, 0x00003A3F#32, 0x000065DB#32] &&
        t.csr.nrng == 0xFCFBEDBF#32 && t.csr.sigInfo == 0x101#32) = true := by decide +kernel
/-- TN4: the sum saturates. -/
theorem test_noise_sat :
    goesOn (exec .noise (signal { Csrs.reset with sigCount := 1#32, sigInfo := 1#32, sigma := 0x10000#32 }
      [0x7FFFFFFF#32])) (fun t => t.sigWord 0 == 0x7FFFFFFF#32 && t.csr.status == 0x0A#32) = true := by decide +kernel
/-- TD9, its first window: the signal of TS8 at gain 1. -/
theorem test_demod :
    goesOn (exec .demod (signal { Csrs.reset with sigCount := 8#32, sigInfo := 0x21#32, carFcw := 0x18000000#32 }
      [0x00010000#32, 0x0000D4DB#32, 0x000061F8#32, 0xFFFFCE0F#32, 0xFFFF4AFB#32, 0xFFFF04EB#32, 0xFFFF137D#32,
        0xFFFF71C6#32])) (fun t =>
          wordsAt t 0x18000 2 == [0x00008FFF#32, 0xFFFFE80D#32] && t.csr.estCount == 1#32 &&
          t.csr.estInfo == 0x021#32) = true := by decide +kernel
/-- TD11: gain 2 saturates. -/
theorem test_demod_sat :
    let c := { Csrs.reset with sigCount := 1#32, sigInfo := 1#32, nsps := 1#32, carFcw := 0#32, ctrl := 1#32 }
    goesOn (exec .demod (signal c [0x7FFFFFFF#32])) (fun t =>
          wordsAt t 0x18000 2 == [0x7FFFFFFF#32, 0#32] && t.csr.status == 0x0A#32 &&
          t.csr.estInfo == 0x101#32) = true := by decide +kernel

/-- TU2. -/
theorem test_runAsk :
    goesOn (exec .runAsk (withWords (withCsr { Csrs.reset with nbits := 2#32, ctrl := 1#32 }) 0x01000 [1#32])) (fun t =>
      wordsAt t 0x18000 4 == [0x00010000#32, 0#32, 0#32, 0#32] && t.csr.estInfo == 0x101#32) = true := by decide +kernel
/-- TU3. -/
theorem test_runFsk : goesOn (exec .runFsk (bits 2#32 1#32)) (fun t =>
    t.sigWord 1 == 0x000061F8#32 && t.csr.sigCount == 16#32 && t.csr.estCount == 0#32 &&
    t.csr.estInfo == 0x012#32 && t.csr.status == 0x02#32) = true := by decide +kernel
/-- TU1. -/
theorem test_runBpsk :
    goesOn (exec .runBpsk (withWords (withCsr { Csrs.reset with nbits := 2#32, ctrl := 1#32 }) 0x01000 [1#32])) (fun t =>
      wordsAt t 0x18000 4 == [0x00010000#32, 0#32, 0xFFFEFFFF#32, 0#32] && t.csr.symInfo == 0x21#32 &&
      t.csr.sigInfo == 0x21#32 && t.csr.estInfo == 0x121#32) = true := by decide +kernel
/-- TU4, its second symbol: bits 0,1. -/
theorem test_runQpsk :
    goesOn (exec .runQpsk (withWords (withCsr { Csrs.reset with nbits := 2#32, ctrl := 1#32 }) 0x01000 [2#32])) (fun t =>
      wordsAt t 0x18000 2 == [0xFFFEFFFF#32, 0x00010000#32] && t.csr.estInfo == 0x131#32) = true := by decide +kernel
/-- TU5. -/
theorem test_runQam16 : goesOn (exec .runQam16 (bits 4#32 0xC#32)) (fun t =>
    wordsAt t 0x18000 2 == [0x0000796E#32, 0xFFFFD786#32] && t.csr.estInfo == 0x041#32) = true := by decide +kernel
/-- TU10: a negative sigma is found before anything is written. -/
theorem test_run_param :
    goesOn (exec .runBpsk (withWords (withCsr { Csrs.reset with nbits := 2#32, sigma := 0x80000000#32 }) 0x01000 [1#32]))
      (fun t => t.csr.errCode == 0x04#32 && t.csr.symCount == 0#32 && t.mem.length == 4) = true := by decide +kernel
/-- TC6. -/
theorem test_sreset :
    goesOn (exec .sreset (withWords (withCsr { Csrs.reset with nsps := 3#32, lastCmd := 0xF#32 }) 0x01000 [0xAB#32]))
      (fun t => t.csr == Csrs.reset && t.bitWord 0 == 0xAB#32) = true := by decide +kernel

/-! ## The bus -/

/-- TB1. -/
theorem test_busRd_id : goesOn (exec (.busRd 0x00000#20) State.reset) (fun t =>
    t.reply == some (.readData .ok 0x51414D01#32)) = true := by decide
/-- TB3 and TB4: misaligned and unmapped. -/
theorem test_busRd_err : goesOn (exec (.busRd 0x00002#20) State.reset) (fun t =>
    t.reply == some (.readData .err 0#32) && t.hostFault) = true ∧
    goesOn (exec (.busRd 0x01200#20) State.reset) (fun t => t.reply == some (.readData .err 0#32)) = true := by decide
/-- TB10. -/
theorem test_busWr_ctrl : goesOn (exec (.busWr 0x00008#20 0xFFFFFFFF#32) State.reset) (fun t =>
    t.csr.ctrl == 1#32 && t.reply == some (.writeAck .ok)) = true := by decide
/-- TC3 and TC4. -/
theorem test_busWr_busy :
    goesOn (exec (.busWr 0x00014#20 0#32) (State.reset.latchCommand 1#32)) (fun t =>
      t.pend == some 1#32 && t.csr.status == 0x11#32 && t.csr.lastCmd == 1#32) = true ∧
    goesOn (exec (.busWr 0x00024#20 3#32) (State.reset.latchCommand 1#32)) (fun t =>
      t.csr.nsps == 8#32 && t.csr.status == 0x21#32) = true := by decide

/-- TX10 and TX11: a second error is not recorded; the acknowledge clears all. -/
theorem test_error_multi :
    let c := { Csrs.reset with status := 0x04#32, errCode := 0x03#32, errCmd := 0x32#32 }
    let s := (withCsr c).loadCommand 0x52#32
    goesOn (step s) (fun t => t.csr.status == 0x46#32 && t.csr.errCode == 0x03#32 && t.csr.errCmd == 0x32#32 &&
      goesOn (exec (.busWr 0x0000C#20 0x7E#32) t) (fun u => u.csr.status == 0#32 && u.csr.errCode == 0#32 &&
        u.csr.errCmd == 0#32)) = true := by decide

/-- TI2, TI4 and TI5. -/
theorem test_irq :
    (withCsr { Csrs.reset with irqEn := 1#32, status := 0x02#32 }).irq = true ∧
    (withCsr { Csrs.reset with irqEn := 2#32, status := 0x02#32 }).irq = false ∧
    (withCsr { Csrs.reset with irqEn := 2#32, status := 0x06#32 }).irq = true := by decide

/-- A hardware reset while GENBITS of 33 bits is pending can lose the first two words of BIT_MEM and no other word
(R322). -/
theorem test_reset_footprint :
    ((bits 33#32 0#32).latchCommand 1#32).pendingFootprint = ⟨2, 0, 0, 0⟩ ∧
    ((bits 0#32 0#32).latchCommand 1#32).pendingFootprint = ⟨0, 0, 0, 0⟩ := by decide

/-! ## Witnesses: for each statement with hypotheses, states and operands that meet them, clause by clause -/

/-- GENBITS of 8 bits accepted and not yet run: a state a run from reset reaches, with the next inputs chosen. -/
def pending (turns : List Turn) : State :=
  { (withCsr { Csrs.reset with nbits := 8#32 }).latchCommand 1#32 with turns := turns }

/-- The invariant holds there. -/
theorem witness_inv (l : List Turn) : Inv (pending l) where
  memRising := rfl
  memInBuffers := rfl
  busyHasCommand := show (1#32 : Word).getLsbD 0 = true by decide
  pendIsLastCmd := fun w h => Option.some.inj h
  busyNotDone := fun _ => show (1#32 : Word).getLsbD 1 = false by decide
  statusReserved := by show (1#32 &&& ~~~0x7F#32 = 0#32); decide
  ctrlReserved := by show (0#32 &&& ~~~1#32 = 0#32); decide
  irqEnReserved := by show (0#32 &&& ~~~7#32 = 0#32); decide
  sigInfoReserved := by show (0#32 &&& ~~~0x173#32 = 0#32); decide
  brngNonzero := by show (0x12345678#32 ≠ 0#32); decide
  nrngNonzero := by show (0x9E3779B9#32 ≠ 0#32); decide
  symCountRange := Nat.zero_le _
  symInfoLegal := by show (0#32 ∈ _); decide
  symNone := ⟨fun _ => rfl, fun _ => rfl⟩
  estCountRange := Nat.zero_le _
  estInfoReserved := by show (0#32 &&& ~~~0x173#32 = 0#32); decide
  estKindLegal := by show (kindOf 0#32 ≠ 3); decide
  estEmpty := fun _ => ⟨rfl, show (0#32 : Word).getLsbD 8 = false by decide⟩
  errRecorded := ⟨fun h => absurd (show (1#32 : Word).getLsbD 2 = true from h) (by decide), fun h => absurd rfl h⟩
  errCodeRange := Nat.zero_le _
  noErrNoCmd := fun _ => rfl
  resetIdle := fun h => by cases h

/-- `DecodeEncodeAgree`: a decoded word, a write tuple, and two read tuples that differ in the ignored data. -/
theorem witness_DecodeEncodeAgree :
    decodeCommand 0x42#32 = .instr .mapQam16 ∧ (0x1010000000000C#53).getLsbD 52 = true ∧
    (0x0000140000002A#53).getLsbD 52 = false ∧ (0x00001400000000#53).getLsbD 52 = false ∧
    (0x0000140000002A#53).extractLsb' 32 20 = (0x00001400000000#53).extractLsb' 32 20 := by decide
/-- `DecodingProcedureIsTotal`: words at the edges of its clauses. -/
theorem witness_DecodingProcedureIsTotal :
    (0x80#32).toNat / 128 ≠ 0 ∧ ((0x10#32).toNat / 128 = 0 ∧ (0x10#32).toNat / 16 % 8 ≠ 0) ∧
    (7 ≤ (0x07#32).toNat % 16 ∧ (0x0E#32).toNat % 16 ≤ 14) ∧ (0x0F#32).toNat / 16 = 0 ∧
    ((0x42#32).toNat % 16 = 2 ∧ (0x42#32).toNat / 16 = 4) ∧ ((0x52#32).toNat % 16 = 2 ∧ 5 ≤ (0x52#32).toNat / 16) ∧
    ((0x46#32).toNat % 16 = 6 ∧ (0x46#32).toNat / 16 = 4) ∧ ((0x76#32).toNat % 16 = 6 ∧ 5 ≤ (0x76#32).toNat / 16) := by
  decide
/-- `StepRunsTheDecodedInstruction`: the engine with no input left, the engine's own turn, a transaction, and an engine
that is not enabled. -/
theorem witness_StepRunsTheDecodedInstruction :
    (EngineNext (pending []) ∧ EngineNext (pending [.engine]) ∧ (pending []).busy = true ∧
      (pending []).pend = some 1#32 ∧ decode (.command 1#32) = .instr .genbits) ∧
    ((pending [.bus 0#53]).turns = .bus 0#53 :: [] ∧ (pending [.bus 0#53]).presetn = true ∧
      decode (.transaction 0#53) = .instr (.busRd 0#20)) ∧
    (EngineNext State.reset ∧ State.reset.busy = false) :=
  ⟨⟨.inl rfl, .inr rfl, rfl, rfl, by decide⟩, ⟨rfl, rfl, by decide⟩, .inl rfl, rfl⟩
/-- `RejectedWordsEndInTheirError`: each kind of illegal word, and an invalid scheme of MAP and of RUN. -/
theorem witness_RejectedWordsEndInTheirError :
    (EngineNext (State.reset.loadCommand 0x80#32) ∧ (State.reset.loadCommand 0x80#32).busy = true ∧
      (State.reset.loadCommand 0x80#32).pend = some 0x80#32) ∧
    (0x80#32).toNat / 128 ≠ 0 ∧ (7 ≤ (0x07#32).toNat % 16 ∧ (0x0E#32).toNat % 16 ≤ 14) ∧
    ((0x1F#32).toNat % 16 ≠ 2 ∧ (0x1F#32).toNat % 16 ≠ 6 ∧ (0x1F#32).toNat / 16 % 8 ≠ 0) ∧
    ((0x52#32).toNat / 128 = 0 ∧ (0x52#32).toNat % 16 = 2 ∧ 5 ≤ (0x52#32).toNat / 16) ∧
    ((0x76#32).toNat / 128 = 0 ∧ (0x76#32).toNat % 16 = 6 ∧ 5 ≤ (0x76#32).toNat / 16) :=
  ⟨⟨.inr rfl, rfl, rfl⟩, by decide, by decide, by decide, by decide, by decide⟩
/-- `ErrorEntryRecordsTheFirstError`: with ERR = 0, and with an error already recorded. -/
theorem witness_ErrorEntryRecordsTheFirstError :
    (pending []).pend = some 1#32 ∧ (pending []).err = false ∧
    ((withCsr { Csrs.reset with status := 0x04#32 }).latchCommand 1#32).pend = some 1#32 ∧
    ((withCsr { Csrs.reset with status := 0x04#32 }).latchCommand 1#32).err = true := by decide
/-- `ChecksFailInOrder`, SYNTH's three clauses (TS12 to TS14). -/
theorem witness_ChecksFailInOrder_synth :
    (let s := State.reset; s.csr.symInfo.toNat % 4 = 0) ∧
    (let s := withCsr { Csrs.reset with symInfo := 0x21#32, nsps := 0#32 };
      s.csr.symInfo.toNat % 4 ≠ 0 ∧ s.csr.nsps.toNat = 0) ∧
    (let s := withCsr { Csrs.reset with symInfo := 0x21#32, nsps := 17#32, symCount := 4096#32 };
      s.csr.symInfo.toNat % 4 ≠ 0 ∧ s.csr.nsps.toNat ≠ 0 ∧ 65536 < s.csr.symCount.toNat * s.csr.nsps.toNat) := by
  decide
/-- `ChecksFailInOrder`, NOISE's three clauses (TN7 to TN9; both kinds that give E_NODATA). -/
theorem witness_ChecksFailInOrder_noise :
    (let s := withCsr { Csrs.reset with sigma := 0xFFFFFFFF#32 }; s.csr.sigma.toInt < 0) ∧
    (let s := State.reset; 0 ≤ s.csr.sigma.toInt ∧ s.csr.sigInfo.toNat % 4 = 0) ∧
    (let s := withCsr { Csrs.reset with sigInfo := 3#32 }; 0 ≤ s.csr.sigma.toInt ∧ s.csr.sigInfo.toNat % 4 = 3) ∧
    (let s := withCsr { Csrs.reset with sigInfo := 1#32, sigCount := 65537#32 };
      0 ≤ s.csr.sigma.toInt ∧ s.csr.sigInfo.toNat % 4 = 1 ∧ 65536 < s.csr.sigCount.toNat) := by decide
/-- `ChecksFailInOrder`, DEMOD's five clauses (TD15, TD16, TD18, TD20, TD17, TD19). -/
theorem witness_ChecksFailInOrder_demod :
    (let s := State.reset; s.csr.sigInfo.toNat % 4 = 0) ∧
    (let s := withCsr { Csrs.reset with sigInfo := 3#32 }; s.csr.sigInfo.toNat % 4 = 3) ∧
    (let s := withCsr { Csrs.reset with sigInfo := 1#32, sigCount := 65537#32 };
      s.csr.sigInfo.toNat % 4 = 1 ∧ 65536 < s.csr.sigCount.toNat) ∧
    (let s := withCsr { Csrs.reset with sigInfo := 1#32, sigCount := 65536#32, nsps := 0#32 };
      s.csr.sigInfo.toNat % 4 = 1 ∧ s.csr.sigCount.toNat ≤ 65536 ∧ s.csr.nsps.toNat = 0) ∧
    (let s := withCsr { Csrs.reset with sigInfo := 1#32, sigCount := 10#32, nsps := 4#32 };
      s.csr.sigInfo.toNat % 4 = 1 ∧ s.csr.sigCount.toNat ≤ 65536 ∧ s.csr.nsps.toNat ≠ 0 ∧
      s.csr.sigCount.toNat % s.csr.nsps.toNat ≠ 0) ∧
    (let s := withCsr { Csrs.reset with sigInfo := 1#32, sigCount := 8194#32, nsps := 2#32 };
      s.csr.sigInfo.toNat % 4 = 1 ∧ s.csr.sigCount.toNat ≤ 65536 ∧ s.csr.nsps.toNat ≠ 0 ∧
      s.csr.sigCount.toNat % s.csr.nsps.toNat = 0 ∧ 4096 < s.csr.sigCount.toNat / s.csr.nsps.toNat) := by decide
/-- `ChecksFailInOrder`, the clauses of GENBITS and MAP (TG5, TG6, TM12, TM14, TM16). -/
theorem witness_ChecksFailInOrder_map :
    (bits 0#32 0#32).csr.nbits.toNat = 0 ∧ 4096 < (bits 4097#32 0#32).csr.nbits.toNat ∧
    ((bits 1#32 0#32).csr.nbits.toNat ≤ 4096 ∧ (bits 1#32 0#32).csr.nbits.toNat < bitsPer .qpsk) ∧
    ((bits 6#32 0#32).csr.nbits.toNat ≤ 4096 ∧ (bits 6#32 0#32).csr.nbits.toNat % bitsPer .qam16 ≠ 0) := by decide
/-- `ChecksFailInOrder`, RUN's five clauses (TU7 to TU10). -/
theorem witness_ChecksFailInOrder_run :
    (let s := withCsr { Csrs.reset with nbits := 4097#32 }; 4096 < s.csr.nbits.toNat) ∧
    (let s := withCsr { Csrs.reset with nbits := 3#32 };
      s.csr.nbits.toNat ≤ 4096 ∧ s.csr.nbits.toNat % bitsPer .qpsk ≠ 0 ∧ s.csr.nbits.toNat < bitsPer .qam16) ∧
    (let s := withCsr { Csrs.reset with nbits := 2#32, nsps := 0#32 };
      s.csr.nbits.toNat ≤ 4096 ∧ bitsPer .bpsk ≤ s.csr.nbits.toNat ∧ s.csr.nbits.toNat % bitsPer .bpsk = 0 ∧
      s.csr.nsps.toNat = 0) ∧
    (let s := withCsr { Csrs.reset with nbits := 4096#32, nsps := 17#32 };
      s.csr.nbits.toNat ≤ 4096 ∧ bitsPer .bpsk ≤ s.csr.nbits.toNat ∧ s.csr.nbits.toNat % bitsPer .bpsk = 0 ∧
      s.csr.nsps.toNat ≠ 0 ∧ 65536 < s.csr.nbits.toNat / bitsPer .bpsk * s.csr.nsps.toNat) ∧
    (let s := withCsr { Csrs.reset with nbits := 2#32, sigma := 0x80000000#32 };
      s.csr.nbits.toNat ≤ 4096 ∧ bitsPer .bpsk ≤ s.csr.nbits.toNat ∧ s.csr.nbits.toNat % bitsPer .bpsk = 0 ∧
      s.csr.nsps.toNat ≠ 0 ∧ s.csr.nbits.toNat / bitsPer .bpsk * s.csr.nsps.toNat ≤ 65536 ∧
      s.csr.sigma.toInt < 0) := by decide
/-- `GenbitsFillsTheBitStream`: the least and the greatest NBITS that pass, and the two that fail beside them. -/
theorem witness_GenbitsFillsTheBitStream :
    (1 ≤ (bits 1#32 0#32).csr.nbits.toNat ∧ (bits 4096#32 0#32).csr.nbits.toNat ≤ 4096) ∧
    (bits 0#32 0#32).csr.nbits.toNat = 0 ∧ 4096 < (bits 4097#32 0#32).csr.nbits.toNat := by decide
/-- `MapAskKeysTheAmplitude`, `MapFskStoresTheTone`, `MapBpskKeysThePhase` (1 bit per symbol), `MapQpskIsGrayCoded` (2)
and `MapQam16ScalesTheAxes` (4): NBITS at the edges of each clause. -/
theorem witness_MapCommands :
    (1 ≤ (bits 1#32 0#32).csr.nbits.toNat ∧ (bits 1#32 0#32).csr.nbits.toNat % 1 = 0) ∧
    (2 ≤ (bits 2#32 0#32).csr.nbits.toNat ∧ (bits 2#32 0#32).csr.nbits.toNat % 2 = 0) ∧
    (4 ≤ (bits 4096#32 0#32).csr.nbits.toNat ∧ (bits 4096#32 0#32).csr.nbits.toNat % 4 = 0 ∧
      (bits 4096#32 0#32).csr.nbits.toNat ≤ 4096) ∧
    4096 < (bits 4097#32 0#32).csr.nbits.toNat ∧ (bits 0#32 0#32).csr.nbits.toNat < 1 ∧
    (bits 1#32 0#32).csr.nbits.toNat < 2 ∧ (bits 6#32 0#32).csr.nbits.toNat % 4 ≠ 0 := by decide
/-- `MapBpskKeysThePhase` and `MapQpskIsGrayCoded`: the case that sets SAT. -/
theorem witness_MapSaturates :
    (let s := withWords (withCsr { Csrs.reset with nbits := 2#32, amp := 0x80000000#32 }) 0x01000 [1#32];
      s.csr.amp = 0x80000000#32 ∧ s.streamBit 0 = true ∧ s.streamBit 1 = false) := by decide +kernel
/-- `SynthOfIqSymbols`: TS14's largest signal. -/
theorem witness_SynthOfIqSymbols :
    (let s := withCsr { Csrs.reset with symInfo := 0x21#32, nsps := 16#32, symCount := 4096#32 };
      s.csr.symInfo.toNat % 4 = 1 ∧ 1 ≤ s.csr.nsps.toNat ∧ s.csr.symCount.toNat * s.csr.nsps.toNat = 65536) := by
  decide
/-- `SynthOfToneSymbols`. -/
theorem witness_SynthOfToneSymbols :
    (let s := withCsr { Csrs.reset with symInfo := 0x12#32, nsps := 1#32, symCount := 2#32 };
      s.csr.symInfo.toNat % 4 = 2 ∧ 1 ≤ s.csr.nsps.toNat ∧ s.csr.symCount.toNat * s.csr.nsps.toNat ≤ 65536) := by
  decide
/-- `NoiseAddsOneDrawPerSample`: both signal kinds, at the largest count. -/
theorem witness_NoiseAddsOneDrawPerSample :
    (let s := withCsr { Csrs.reset with sigma := 1#32, sigInfo := 1#32, sigCount := 65536#32 };
      0 < s.csr.sigma.toInt ∧ s.csr.sigInfo.toNat % 4 = 1 ∧ s.csr.sigCount.toNat ≤ 65536 ∧ s.csr.nrng ≠ 0#32) ∧
    (0x12#32).toNat % 4 = 2 := by decide
/-- `NoiseWithZeroSigmaChangesNothing`. -/
theorem witness_NoiseWithZeroSigmaChangesNothing :
    (let s := withCsr { Csrs.reset with sigInfo := 0x12#32, sigCount := 4#32 };
      s.csr.sigma = 0#32 ∧ s.csr.sigInfo.toNat % 4 = 2 ∧ s.csr.sigCount.toNat ≤ 65536) := by decide
/-- `DemodCorrelatesEachWindow`: 4096 windows of 16 samples, the most of both. -/
theorem witness_DemodCorrelatesEachWindow :
    (let s := withCsr { Csrs.reset with sigInfo := 0x121#32, sigCount := 65536#32, nsps := 16#32 };
      s.csr.sigInfo.toNat % 4 = 1 ∧ s.csr.sigCount.toNat ≤ 65536 ∧ 1 ≤ s.csr.nsps.toNat ∧
      s.csr.sigCount.toNat % s.csr.nsps.toNat = 0 ∧ s.csr.sigCount.toNat / s.csr.nsps.toNat = 4096) := by decide
/-- `DemodOfFskIsEmpty`: TD21. -/
theorem witness_DemodOfFskIsEmpty :
    (withCsr { Csrs.reset with sigInfo := 2#32, sigCount := 65537#32, nsps := 0#32 }).csr.sigInfo.toNat % 4 = 2 := by
  decide
/-- `RunEqualsItsFourStages` and `RunResultsAndFrame`: with noise and without, the latter at the largest counts. -/
theorem witness_RunReady :
    RunReady .qam16 (withCsr { Csrs.reset with nbits := 8#32, sigma := 0x199A#32 }) ∧
    RunReady .bpsk (withCsr { Csrs.reset with nbits := 4096#32, nsps := 16#32 }) := by
  unfold RunReady; decide
/-- `BusReadWhileIdle`, `ConfigurationWriteWhileIdle`, `BufferWriteReadsBack`: an idle state, the last reserved offset,
and the first and last words of the buffers. -/
theorem witness_BusWhileIdle :
    State.reset.busy = false ∧ ((0x000FC#20).toNat % 4 = 0 ∧ 0x58 ≤ (0x000FC#20).toNat ∧ (0x000FC#20).toNat < 0x100) ∧
    HostWritableBuffer (0x01000#20).toNat ∧ HostWritableBuffer (0x7FFFC#20).toNat ∧
    HostReadOnlyBuffer (0x10000#20).toNat ∧ HostReadOnlyBuffer (0x1FFFC#20).toNat := by
  unfold HostWritableBuffer HostReadOnlyBuffer; decide
/-- `BusReadWhileBusy`, `WriteWhileBusyIsDropped`, `CmdWriteIsAcceptedOrDropped`: a busy state and mapped addresses. -/
theorem witness_BusWhileBusy :
    (pending []).busy = true ∧ ¬ Unmapped (0x01000#20).toNat ∧ ¬ Unmapped (0x1FFFC#20).toNat ∧
    HostWritableBuffer (0x40000#20).toNat ∧ State.reset.busy = false := by
  unfold HostWritableBuffer Unmapped; decide
/-- `BusErrorChangesNothing`: a misaligned address, and the edges of the unmapped regions. -/
theorem witness_BusErrorChangesNothing :
    (0x00002#20).toNat % 4 ≠ 0 ∧ Unmapped (0x00100#20).toNat ∧ Unmapped (0x00FFC#20).toNat ∧
    Unmapped (0x01200#20).toNat ∧ Unmapped (0x0FFFC#20).toNat ∧ Unmapped (0x20000#20).toNat ∧
    Unmapped (0x3FFFC#20).toNat ∧ Unmapped (0x80000#20).toNat := by
  unfold Unmapped; decide
/-- `StatusWriteClearsTheWrittenBits`: a write with and one without the ERR bit. -/
theorem witness_StatusWriteClearsTheWrittenBits :
    (0x7E#32).getLsbD 2 = true ∧ (0x02#32).getLsbD 2 = false := by decide
/-- `WritesToReadOnlyTargetsAreIgnored`: a read-only register, a reserved offset, a word of SYM_MEM. -/
theorem witness_WritesToReadOnlyTargetsAreIgnored :
    (0x00054#20).toNat = 0x54 ∧ (0x58 ≤ (0x00058#20).toNat ∧ (0x00058#20).toNat < 0x100) ∧
    ((0x10000#20).toNat % 4 = 0 ∧ HostReadOnlyBuffer (0x10000#20).toNat) := by
  unfold HostReadOnlyBuffer; decide
/-- `HardwareReset`, `NoAnswerWhileResetIsAsserted`, `PowerCycleLosesAllState`: each input, idle and busy. -/
theorem witness_ResetInputs :
    (pending [.resetAssert, .engine]).turns = .resetAssert :: [.engine] ∧
    ({ State.reset with turns := [.resetAssert] } : State).busy = false ∧
    (pending [.resetRelease]).turns = .resetRelease :: [] ∧ (pending [.powerCycle]).turns = .powerCycle :: [] ∧
    (let s := { State.reset with presetn := false, turns := [.bus 0#53] };
      s.presetn = false ∧ s.turns = .bus 0#53 :: []) := by decide
/-- `IrqIsTheEnabledFlags`. -/
theorem witness_IrqIsTheEnabledFlags : (withCsr { Csrs.reset with irqEn := 7#32 }).busy = false := by decide
/-- `SaturationClamps`: the values on both sides of both ends. -/
theorem witness_SaturationClamps :
    (2147483647 : Int) < 2147483648 ∧ (-2147483649 : Int) < -2147483648 ∧
    (-2147483648 : Int) ≤ -2147483648 ∧ (2147483647 : Int) ≤ 2147483647 := by decide
/-- `TableIsTheRoundedCosine` and `TableSymmetries`. -/
theorem witness_TableIndex : 0 < 1024 ∧ 1023 < 1024 := by decide
/-- `PhaseAccumulatorHoldsThePhase`: the accumulator of F = 0x40000000. -/
theorem witness_PhaseAccumulatorHoldsThePhase :
    ∃ pa : Nat → Word, pa 0 = 0#32 ∧ ∀ m, pa (m + 1) = pa m + 0x40000000#32 :=
  ⟨fun m => Nat.rec 0#32 (fun _ x => x + 0x40000000#32) m, rfl, fun _ => rfl⟩
/-- `GeneratorNeverReachesZero` and `RadiusIsNearTheBoxMullerRadius`. -/
theorem witness_NonzeroWord : (1#32 : Word) ≠ 0#32 ∧ (0xFFFFFFFF#32 : Word) ≠ 0#32 := by decide
/-- `NoiseValueIsBounded`. -/
theorem witness_NoiseValueIsBounded : (0 : Int) ≤ 0x8000 ∧ (0x510C4619#32 : Word) ≠ 0#32 := by decide
/-- `EveryStepKeepsTheInvariant` and `NoStepStops`: a state with the invariant, whose step goes on. -/
theorem witness_InvariantStep : Inv (pending [.resetRelease]) ∧
    step (pending [.resetRelease]) = .next { pending [] with drawIx := 1 } :=
  ⟨witness_inv _, rfl⟩
/-- `ConfigurationIsStableWhileBusy`: two transactions, then the engine's turn. -/
theorem witness_ConfigurationIsStableWhileBusy :
    (let s := pending [.bus 0#53, .bus 0#53, .engine];
      s.busy = true ∧ s.presetn = true ∧ s.turns = ([0#53, 0#53] : List BusTuple).map .bus ++ [.engine]) := by decide
/-- `AcceptedCommandCompletes`: with no transaction and with one before the engine's step. -/
theorem witness_AcceptedCommandCompletes :
    (Inv (pending []) ∧ (pending []).busy = true ∧ (pending []).turns = ([] : List BusTuple).map .bus) ∧
    (Inv (pending [.bus 0#53]) ∧ (pending [.bus 0#53]).turns = ([0#53] : List BusTuple).map .bus) :=
  ⟨⟨witness_inv _, rfl, rfl⟩, witness_inv _, rfl⟩
/-- `GenbitsIsAFunctionOfItsSeed`: two states that agree on NBITS and BRNG and differ in AMP. -/
theorem witness_GenbitsIsAFunctionOfItsSeed :
    (let s := withCsr { Csrs.reset with nbits := 8#32 };
      let u := withCsr { Csrs.reset with nbits := 8#32, amp := 1#32 };
      s ≠ u ∧ s.csr.nbits = u.csr.nbits ∧ s.csr.brng = u.csr.brng ∧ 1 ≤ s.csr.nbits.toNat ∧
      s.csr.nbits.toNat ≤ 4096) := by decide
/-- `OnlySresetChangesTheConfiguration`. -/
theorem witness_OnlySresetChangesTheConfiguration :
    Instr.nop ≠ .sreset ∧ (∀ a d, Instr.nop ≠ .busWr a d) ∧ exec .nop State.reset = .next State.reset.complete :=
  ⟨by decide, fun _ _ h => Instr.noConfusion h, rfl⟩
/-- `RoundTripIsExactAtAQuarterCycle`: one QPSK symbol. -/
theorem witness_RoundTripIsExactAtAQuarterCycle :
    (let c := { Csrs.reset with
        ctrl := 1#32, nsps := 4#32, carFcw := 0x40000000#32, symCount := 1#32, symInfo := 0x31#32 };
      let s := symbols c [0xFFFF0000#32, 0x00010000#32];
      s.csr.symInfo.toNat % 4 = 1 ∧ s.csr.nsps = 4#32 ∧ s.csr.carFcw = 0x40000000#32 ∧
      s.csr.ctrl.getLsbD 0 = true ∧ s.csr.symCount.toNat ≤ 4096 ∧
      ∀ j, j < 2 * s.csr.symCount.toNat → s.symWord j ≠ 0x80000000#32) := by decide +kernel

end Sys2Proof.Tests
end

