-- ==== Sys2Proof/Proofs/Scope.lean ====
section
/-! Proofs about spec/00_scope.md: which agent a step lets move, and what that agent does in its turn (R14, R335).
The lemmas of Laws/Step.lean take a given successor state apart; these equations give the outcome itself, so they also
cover a step that faults. -/

namespace Sys2Proof.Machine

open Sys2Proof.Claims

@[simp] theorem beginStep_busy (s : State) : s.beginStep.busy = s.busy := rfl

/-- Both forms of the engine's turn, an input of its own and the empty input list, come to the engine's step. -/
theorem step_of_engineNext {s : State} (hturn : EngineNext s) : step s = engineStep s.beginStep := by
  unfold step
  rcases hturn with hnil | hhead
  · rw [hnil]
  · obtain ⟨rest, hcons⟩ := List.head?_eq_some_iff.mp hhead
    rw [hcons]

theorem step_of_bus {s : State} {t : BusTuple} {rest : List Turn} (hturns : s.turns = .bus t :: rest) :
    step s = hostStep t s.beginStep := by
  unfold step
  rw [hturns]

theorem beginStep_of_turns_cons {s : State} {x : Turn} {rest : List Turn} (hturns : s.turns = x :: rest) :
    s.beginStep = { s with turns := rest, drawIx := s.drawIx + 1 } := by
  unfold State.beginStep
  rw [hturns, List.tail_cons]

theorem engineStep_of_idle {s : State} (hidle : s.busy = false) : engineStep s = .next s := by
  simp [engineStep, hidle]

theorem engineStep_of_instr {s : State} {w : Word} {i : Instr} (hbusy : s.busy = true)
    (hpend : s.pend = some w) (hdecode : decode (.command w) = .instr i) : engineStep s = exec i s := by
  simp [engineStep, hbusy, hpend, hdecode]

theorem hostStep_of_instr {s : State} {t : BusTuple} {i : Instr} (hpresetn : s.presetn = true)
    (hdecode : decode (.transaction t) = .instr i) : hostStep t s = exec i s := by
  simp [hostStep, hpresetn, hdecode]

/-- Settles O5: the step hands the state with the input taken off to the agent that moves, and taking the input off
leaves BUSY, PEND and `presetn`, on which that agent's choice depends, as they were. -/
theorem stepRunsTheDecodedInstruction : Obligations.StepRunsTheDecodedInstruction := by
  unfold Obligations.StepRunsTheDecodedInstruction
  refine ⟨?engine, ?host, ?idle⟩
  case engine =>
    intro s w i hturn hbusy hpend hdecode
    calc step s = engineStep s.beginStep := step_of_engineNext hturn
      _ = exec i s.beginStep :=
        engineStep_of_instr ((beginStep_busy s).trans hbusy) ((beginStep_pend s).trans hpend) hdecode
  case host =>
    intro s t rest i hturns hpresetn hdecode
    calc step s = hostStep t s.beginStep := step_of_bus hturns
      _ = exec i s.beginStep := hostStep_of_instr ((beginStep_presetn s).trans hpresetn) hdecode
      _ = exec i { s with turns := rest, drawIx := s.drawIx + 1 } := by rw [beginStep_of_turns_cons hturns]
  case idle =>
    intro s hturn hidle
    calc step s = engineStep s.beginStep := step_of_engineNext hturn
      _ = .next s.beginStep := engineStep_of_idle ((beginStep_busy s).trans hidle)

end Sys2Proof.Machine
end

/-! Proofs about spec/10_state.md: the host's writes to the registers (R24 to R46), and the invariant, which holds at
reset and which every step keeps. Each shared operation and each command body keeps the invariant on its own, so the
step's proof only follows the cases of Laws/Step.lean. -/

namespace Sys2Proof.Machine

open Sys2Proof.Claims

/-! ## Reserved bits -/

/-- Storing a word under a mask leaves the bits outside a wider mask 0. -/
theorem and_reserved {k m : Word} (hk : k &&& ~~~m = 0#32) (v : Word) : (v &&& k) &&& ~~~m = 0#32 := by
  rw [BitVec.and_assoc, hk, BitVec.and_zero]

theorem or_reserved {v w m : Word} (hv : v &&& ~~~m = 0#32) (hw : w &&& ~~~m = 0#32) :
    (v ||| w) &&& ~~~m = 0#32 := by
  rw [BitVec.and_or_distrib_right, hv, hw, BitVec.or_zero]

theorem clearBits_reserved {v m : Word} (hv : v &&& ~~~m = 0#32) (k : Word) :
    clearBits v k &&& ~~~m = 0#32 := by
  rw [clearBits, BitVec.and_comm v, BitVec.and_assoc, hv, BitVec.and_zero]

theorem setBits_reserved {v k m : Word} (hv : v &&& ~~~m = 0#32) (hk : k &&& ~~~m = 0#32) :
    setBits v k &&& ~~~m = 0#32 := or_reserved hv hk

/-- The W1C bits of STATUS are bits 1 to 6 (R26). -/
theorem w1cMask_bits (i : Nat) : w1cMask.getLsbD i = decide (1 ≤ i ∧ i ≤ 6) := by
  rcases Nat.lt_or_ge i 32 with hi | hi
  · revert i; decide
  · rw [BitVec.getLsbD_of_ge _ _ hi]; simp; omega

/-! ## The info registers -/

theorem kindOf_infoWord (kind scheme : Nat) : kindOf (infoWord kind scheme) = kind % 4 := by
  rw [kindOf_eq, infoWord, BitVec.toNat_ofNat]; omega

theorem kindOf_estInfoValid (s : State) : kindOf (estInfoValid s) = 1 := by
  rw [kindOf_eq, estInfoValid, BitVec.toNat_ofNat]; split <;> omega

theorem infoWord_empty_reserved (w : Word) : infoWord 2 (schemeOf w) &&& ~~~0x173#32 = 0#32 := by
  rw [infoWord_empty]
  exact or_reserved (by decide) (and_reserved (by decide) w)

theorem infoWord_empty_dgain (w : Word) : (infoWord 2 (schemeOf w)).getLsbD 8 = false := by
  rw [infoWord_empty, BitVec.getLsbD_or, BitVec.getLsbD_and]
  simp

theorem estInfoValid_reserved (s : State) : estInfoValid s &&& ~~~0x173#32 = 0#32 := by
  have hdgain : ((s.csr.ctrl &&& 1#32) <<< 8) &&& ~~~0x173#32 = 0#32 := by
    rw [and_one]; split <;> decide
  rw [estInfoValid_eq]
  exact or_reserved (or_reserved (by decide) (and_reserved (by decide) _)) hdgain

/-- SYM_INFO of a scheme (R113) is one of the words R40 lists, and not 0. -/
theorem schemeInfo_legal (c : Scheme) :
    infoWord (schemeKind c) (schemeCode c) ∈ [0x00#32, 0x01#32, 0x12#32, 0x21#32, 0x31#32, 0x41#32] ∧
      infoWord (schemeKind c) (schemeCode c) ≠ 0#32 := by
  cases c <;> decide

/-! ## The generators (40_kernels.md R151) -/

theorem eq_zero_of_xor_shiftLeft {x : Word} {k : Nat} (hk : k = 13 ∨ k = 5) (h : x ^^^ (x <<< k) = 0#32) :
    x = 0#32 := by
  have hx : x.toNat = x.toNat <<< k % 2 ^ 32 := by
    rw [← BitVec.toNat_shiftLeft, ← BitVec.xor_eq_zero_iff.mp h]
  apply BitVec.eq_of_toNat_eq
  rw [Nat.shiftLeft_eq] at hx
  have hlt := x.isLt
  rcases hk with rfl | rfl <;> simp only [BitVec.toNat_ofNat] <;> omega

theorem eq_zero_of_xor_shiftRight {x : Word} (h : x ^^^ (x >>> 17) = 0#32) : x = 0#32 := by
  have hx : x.toNat = x.toNat >>> 17 := by
    rw [← BitVec.toNat_ushiftRight, ← BitVec.xor_eq_zero_iff.mp h]
  apply BitVec.eq_of_toNat_eq
  rw [Nat.shiftRight_eq_div_pow] at hx
  simp only [BitVec.toNat_ofNat]; omega

/-- Each of the three stages of the generator takes only 0 to 0. -/
theorem xs32_ne_zero {x : Word} (hx : x ≠ 0#32) : xs32 x ≠ 0#32 := fun h =>
  hx (eq_zero_of_xor_shiftLeft (.inl rfl) (eq_zero_of_xor_shiftRight
    (eq_zero_of_xor_shiftLeft (.inr rfl) h)))

theorem rngAfter_ne_zero (n : Nat) {g : Word} (hg : g ≠ 0#32) : rngAfter n g ≠ 0#32 := by
  induction n generalizing g with
  | zero => exact hg
  | succ n ih => exact ih (xs32_ne_zero hg)

/-! ## The memory's canonical form -/

/-- The two clauses of the invariant on the memory. -/
def Memory.Canonical (m : Memory) : Prop := Memory.wf m = true ∧ Memory.inBuffers m = true

/-- The `n` words from byte address `base` up are buffer words. -/
def WordsInBuffer (base n : Nat) : Prop := ∀ x, base ≤ x → x < base + 4 * n → inBuffer x = true

theorem Memory.Canonical.putWords {m : Memory} (hm : m.Canonical) {base : Nat} {ws : List Word}
    (hb : WordsInBuffer base ws.length) : Memory.Canonical (memPutWords m base ws) :=
  ⟨memPutWords_wf m base ws hm.1, memPutWords_inBuffers m base ws hm.2 hb⟩

theorem bitWords_inBuffer {n : Nat} (h : n ≤ 128) : WordsInBuffer Config.bitBase n :=
  fun x => bitAddr_inBuffer x n h

theorem symWords_inBuffer {n : Nat} (h : n ≤ 8192) : WordsInBuffer Config.symBase n :=
  fun x => symAddr_inBuffer x n h

theorem estWords_inBuffer {n : Nat} (h : n ≤ 8192) : WordsInBuffer Config.estBase n :=
  fun x => estAddr_inBuffer x n h

theorem sigWords_inBuffer {n : Nat} (h : n ≤ 65536) : WordsInBuffer Config.sigBase n :=
  fun x => sigAddr_inBuffer x n h

/-! ## The flags after each end of a command -/

@[simp] theorem complete_busy (s : State) : s.complete.busy = false := by
  rw [busy_eq, complete_status_bit s 0 (by decide)]; rfl

@[simp] theorem complete_err (s : State) : s.complete.err = s.err := by
  rw [err_eq, complete_status_bit s 2 (by decide)]; rfl

@[simp] theorem raiseError_busy (s : State) (e : CmdError) : (s.raiseError e).busy = false := by
  rw [busy_eq, raiseError_status_bit s e 0 (by decide)]; rfl

@[simp] theorem raiseError_err (s : State) (e : CmdError) : (s.raiseError e).err = true := by
  rw [err_eq, raiseError_status_bit s e 2 (by decide)]; rfl

/-- An error changes nothing but STATUS, the error record and PEND (R286, R335). -/
theorem raiseError_eq (s : State) (e : CmdError) :
    s.raiseError e = { s with
      pend := none
      csr := { s.csr with
        status := (s.raiseError e).csr.status
        errCode := (s.raiseError e).csr.errCode
        errCmd := (s.raiseError e).csr.errCmd } } := by
  unfold State.raiseError Csrs.recordError
  split <;> rfl

theorem recordError_status_reserved {c : Csrs} (hc : c.status &&& ~~~0x7F#32 = 0#32) (e : CmdError) (cmd : Word) :
    (c.recordError e cmd).status &&& ~~~0x7F#32 = 0#32 := by
  unfold Csrs.recordError
  split
  · exact setBits_reserved hc (by decide)
  · exact hc

theorem errorCode_range (e : CmdError) : errorCode e ≠ 0#32 ∧ (errorCode e).toNat ≤ 6 := by
  cases e <;> decide

/-! ## The shared operations keep the invariant -/

theorem Inv.canonical {s : State} (h : Inv s) : s.mem.Canonical := ⟨h.memRising, h.memInBuffers⟩

/-- The invariant of the reset state, each clause evaluated on R55's values. -/
theorem inv_reset : Inv State.reset where
  memRising := rfl
  memInBuffers := rfl
  busyHasCommand := by decide
  pendIsLastCmd := nofun
  busyNotDone := by decide
  statusReserved := by decide
  ctrlReserved := by decide
  irqEnReserved := by decide
  sigInfoReserved := by decide
  brngNonzero := by decide
  nrngNonzero := by decide
  symCountRange := by decide
  symInfoLegal := by decide
  symNone := by decide
  estCountRange := by decide
  estInfoReserved := by decide
  estKindLegal := by decide
  estEmpty := by decide
  errRecorded := by decide
  errCodeRange := by decide
  noErrNoCmd := by decide
  resetIdle := by decide

/-- The CSRs' reset values with PEND empty give the invariant, whatever the other fields are. -/
theorem inv_of_csr_reset {s : State} (hcsr : s.csr = Csrs.reset) (hpend : s.pend = none) (hmem : s.mem.Canonical) :
    Inv s := by
  obtain ⟨csr, pend, mem, presetn, reply, turns, drawIx, powerOns⟩ := s
  obtain rfl : csr = Csrs.reset := hcsr
  obtain rfl : pend = none := hpend
  exact { inv_reset with
    memRising := hmem.1
    memInBuffers := hmem.2
    resetIdle := fun _ => inv_reset.busyHasCommand }

/-- A change of STATUS that keeps BUSY, DONE, ERR and the reserved bits. -/
theorem Inv.setStatus {s : State} (h : Inv s) {w : Word} (hbusy : w.getLsbD 0 = s.busy)
    (hdone : w.getLsbD 1 = s.done) (herr : w.getLsbD 2 = s.err) (hreserved : w &&& ~~~0x7F#32 = 0#32) :
    Inv (s.setStatus w) where
  __ := h
  busyHasCommand := hbusy.trans h.busyHasCommand
  busyNotDone hb := hdone.trans (h.busyNotDone (hbusy.symm.trans hb))
  statusReserved := hreserved
  errRecorded := (Eq.congr_left herr).trans h.errRecorded
  noErrNoCmd he := h.noErrNoCmd (herr.symm.trans he)
  resetIdle hp := hbusy.trans (h.resetIdle hp)

/-- Setting flags other than BUSY, DONE and ERR. -/
theorem Inv.raiseFlags {s : State} (h : Inv s) {k : Word} (hflag : k ∈ [fSat, fCmdOvr, fWrBusy]) :
    Inv (s.raiseFlags k) := by
  have hk : k.getLsbD 0 = false ∧ k.getLsbD 1 = false ∧ k.getLsbD 2 = false ∧ k &&& ~~~0x7F#32 = 0#32 := by
    simp only [List.mem_cons, List.not_mem_nil, or_false] at hflag
    rcases hflag with rfl | rfl | rfl <;> decide
  obtain ⟨hbusy, hdone, herr, hreserved⟩ := hk
  refine h.setStatus ?_ ?_ ?_ (setBits_reserved h.statusReserved hreserved)
  · rw [setBits_getLsbD, hbusy, Bool.or_false, busy_eq]
  · rw [setBits_getLsbD, hdone, Bool.or_false, done_eq]
  · rw [setBits_getLsbD, herr, Bool.or_false, err_eq]

theorem Inv.putWords {s : State} (h : Inv s) {base : Nat} {ws : List Word} (hb : WordsInBuffer base ws.length) :
    Inv (s.putWords base ws) where
  __ := h
  memRising := (h.canonical.putWords hb).1
  memInBuffers := (h.canonical.putWords hb).2

theorem Inv.storeResults {s : State} (h : Inv s) {base : Nat} {vs : List Int} (hb : WordsInBuffer base vs.length) :
    Inv (s.storeResults base vs) := by
  have hput : Inv (s.putWords base (vs.map storedWord)) := h.putWords (by simpa using hb)
  unfold State.storeResults
  split
  · exact hput.raiseFlags (k := fSat) (by simp)
  · exact hput

theorem Inv.complete {s : State} (h : Inv s) : Inv s.complete where
  __ := h
  busyHasCommand := complete_busy s
  pendIsLastCmd := nofun
  busyNotDone hb := absurd hb (by simp)
  statusReserved := setBits_reserved (clearBits_reserved h.statusReserved _) (by decide)
  errRecorded := (Eq.congr_left (complete_err s)).trans h.errRecorded
  noErrNoCmd he := h.noErrNoCmd ((complete_err s).symm.trans he)
  resetIdle _ := complete_busy s

/-- Taking an error: the record it leaves is the old one if ERR was 1, and this error's if it was 0 (R286, R289). -/
theorem Inv.raiseError {s : State} (h : Inv s) (e : CmdError) : Inv (s.raiseError e) := by
  have hcode : (s.raiseError e).csr.errCode ≠ 0#32 ∧ (s.raiseError e).csr.errCode.toNat ≤ 6 := by
    rw [(raiseError_record s e).1]
    split
    next herr => exact ⟨h.errRecorded.mp herr, h.errCodeRange⟩
    next => exact errorCode_range e
  have hreserved : (s.raiseError e).csr.status &&& ~~~0x7F#32 = 0#32 :=
    clearBits_reserved (setBits_reserved (recordError_status_reserved h.statusReserved _ _) (by decide)) _
  rw [raiseError_eq]
  exact { h with
    busyHasCommand := raiseError_busy s e
    pendIsLastCmd := nofun
    busyNotDone := fun hb => absurd ((raiseError_busy s e).symm.trans hb) (by decide)
    statusReserved := hreserved
    errRecorded := ⟨fun _ => hcode.1, fun _ => raiseError_err s e⟩
    errCodeRange := hcode.2
    noErrNoCmd := fun he => absurd ((raiseError_err s e).symm.trans he) (by decide)
    resetIdle := fun _ => raiseError_busy s e }

/-- The bus answer, the inputs and the counters are in no clause of the invariant. -/
theorem Inv.setReply {s : State} (h : Inv s) (r : Option Reply) : Inv { s with reply := r } := { h with }

theorem Inv.beginStep {s : State} (h : Inv s) : Inv s.beginStep := { h with }

/-! ## Writes to the registers keep the invariant -/

/-- Acceptance happens only while the reset input is high (R320). -/
theorem Inv.latchCommand {s : State} (h : Inv s) (hpresetn : s.presetn = true) (w : Word) :
    Inv (s.latchCommand w) := by
  have hbit : ∀ i, i < 32 → (s.latchCommand w).csr.status.getLsbD i =
      (s.csr.status.getLsbD i && !decide (i = 1) || decide (i = 0)) := fun i hi => by
    rw [latchCommand_csr, setBits_getLsbD, clearBits_getLsbD _ _ _ hi, fBusy_bits, fDone_bits]
  have herr : (s.latchCommand w).err = s.err := by
    rw [err_eq, hbit 2 (by decide), err_eq]; simp
  exact { h with
    busyHasCommand := by rw [busy_eq, hbit 0 (by decide)]; simp
    pendIsLastCmd := fun _ hw => Option.some.inj hw
    busyNotDone := fun _ => by rw [done_eq, hbit 1 (by decide)]; simp
    statusReserved := setBits_reserved (clearBits_reserved h.statusReserved _) (by decide)
    errRecorded := (Eq.congr_left herr).trans h.errRecorded
    noErrNoCmd := fun he => h.noErrNoCmd (herr.symm.trans he)
    resetIdle := fun hp => absurd (hpresetn.symm.trans hp) (by decide) }

theorem Inv.acceptCommand {s : State} (h : Inv s) (hpresetn : s.presetn = true) (w : Word) :
    Inv (s.acceptCommand w) := by
  rcases acceptCommand_cases s w with ⟨_, heq⟩ | ⟨_, heq⟩ <;> rw [heq]
  · exact h.raiseFlags (by simp)
  · exact h.latchCommand hpresetn w

/-- STATUS after a write to it: bits 1 to 6 written as 1 are cleared (R26). -/
theorem writeStatus_bit (s : State) (v : Word) {i : Nat} (hi : i < 32) :
    (s.writeStatus v).csr.status.getLsbD i =
      if 1 ≤ i ∧ i ≤ 6 ∧ v.getLsbD i = true then false else s.csr.status.getLsbD i := by
  have hbit : (s.writeStatus v).csr.status.getLsbD i =
      (s.csr.status.getLsbD i && !(v.getLsbD i && decide (1 ≤ i ∧ i ≤ 6))) := by
    rw [State.writeStatus, setCsr_csr, clearBits_getLsbD _ _ _ hi, BitVec.getLsbD_and, w1cMask_bits]
  rw [hbit]
  split
  next hw1c => simp [hw1c]
  next hkept =>
    cases hv : v.getLsbD i
    · simp
    · simp [show ¬ (1 ≤ i ∧ i ≤ 6) from fun hr => hkept ⟨hr.1, hr.2, hv⟩]

theorem writeStatus_busy (s : State) (v : Word) : (s.writeStatus v).busy = s.busy := by
  rw [busy_eq, writeStatus_bit s v (by decide)]; simp [busy_eq]

theorem writeStatus_err (s : State) (v : Word) :
    (s.writeStatus v).err = if v.getLsbD 2 = true then false else s.err := by
  rw [err_eq, writeStatus_bit s v (by decide)]; simp [err_eq]

/-- The error record after a write to STATUS: it goes with ERR (R26). -/
theorem writeStatus_record (s : State) (v : Word) :
    (s.writeStatus v).csr.errCode = (if v.getLsbD 2 = true then 0#32 else s.csr.errCode) ∧
      (s.writeStatus v).csr.errCmd = (if v.getLsbD 2 = true then 0#32 else s.csr.errCmd) := ⟨rfl, rfl⟩

theorem Inv.writeStatus {s : State} (h : Inv s) (v : Word) : Inv (s.writeStatus v) := by
  obtain ⟨hcode, hcmd⟩ := writeStatus_record s v
  have hrecord : ((s.writeStatus v).err = true ↔ (s.writeStatus v).csr.errCode ≠ 0#32) ∧
      (s.writeStatus v).csr.errCode.toNat ≤ 6 ∧
      ((s.writeStatus v).err = false → (s.writeStatus v).csr.errCmd = 0#32) := by
    rw [writeStatus_err, hcode, hcmd]
    cases v.getLsbD 2
    case true => simp
    case false => simpa using ⟨h.errRecorded, h.errCodeRange, h.noErrNoCmd⟩
  obtain ⟨herr, hrange, hnone⟩ := hrecord
  exact { h with
    busyHasCommand := (writeStatus_busy s v).trans h.busyHasCommand
    busyNotDone := fun hb => by
      rw [done_eq, writeStatus_bit s v (by decide)]
      simpa [done_eq] using fun _ => h.busyNotDone ((writeStatus_busy s v).symm.trans hb)
    statusReserved := clearBits_reserved h.statusReserved _
    errRecorded := herr
    errCodeRange := hrange
    noErrNoCmd := hnone
    resetIdle := fun hp => (writeStatus_busy s v).trans (h.resetIdle hp) }

theorem writeIdle_of_idle {s : State} (hidle : s.busy = false) (f : State → State) : s.writeIdle f = f s :=
  if_neg (hidle.trans_ne Bool.false_ne_true)

theorem Inv.writeIdle {s : State} (h : Inv s) {f : State → State} (hf : Inv (f s)) : Inv (s.writeIdle f) := by
  rcases writeIdle_cases s f with ⟨_, heq⟩ | ⟨_, heq⟩ <;> rw [heq]
  · exact h.raiseFlags (by simp)
  · exact hf

/-- What a write to a generator register stores is never 0 (R37, R38). -/
theorem seed_ne_zero {seed : Word} (hseed : seed ≠ 0#32) (v : Word) : (if v = 0#32 then seed else v) ≠ 0#32 := by
  split
  · exact hseed
  · assumption

theorem Inv.writeCsr {s : State} (h : Inv s) (hpresetn : s.presetn = true) (c : Csr) (v : Word) :
    Inv (s.writeCsr c v) := by
  cases c with
  | id | caps | errCode | errCmd | symCount | symInfo | estCount | estInfo => exact h
  | nbits | nsps | amp | carFcw | devFcw | sigma | sigCount => rw [State.writeCsr]; exact h.writeIdle { h with }
  | ctrl => rw [State.writeCsr]; exact h.writeIdle { h with ctrlReserved := and_reserved (by decide) v }
  | sigInfo => rw [State.writeCsr]; exact h.writeIdle { h with sigInfoReserved := and_reserved (by decide) v }
  | brng => rw [State.writeCsr]; exact h.writeIdle { h with brngNonzero := seed_ne_zero (by decide) v }
  | nrng => rw [State.writeCsr]; exact h.writeIdle { h with nrngNonzero := seed_ne_zero (by decide) v }
  | irqEn => exact { h with irqEnReserved := and_reserved (by decide) v }
  | status => exact h.writeStatus v
  | cmd => exact h.acceptCommand hpresetn v

/-! ## The address map on numbers (20_memory.md R81) -/

theorem aligned_of_mod {a : BusAddr} (h : a.toNat % 4 = 0) : aligned a = true := by simp [aligned, h]

theorem mod_of_aligned {a : BusAddr} (h : aligned a = true) : a.toNat % 4 = 0 := by simpa [aligned] using h

theorem regionOf_csrWindow {a : BusAddr} (h : a.toNat < 0x100) : regionOf a = .csrWindow := if_pos h

/-- The two buffers that the host cannot write. -/
theorem regionOf_readOnlyBuffer {a : BusAddr} (h : HostReadOnlyBuffer a.toNat) :
    regionOf a = .symMem ∨ regionOf a = .estMem := by
  obtain ⟨hlow, hhigh⟩ := h
  unfold regionOf
  rw [if_neg (by omega), if_neg (by omega), if_neg (by omega), if_neg (by omega)]
  rcases Nat.lt_or_ge a.toNat 0x18000 with hsym | hest
  · exact .inl (if_pos hsym)
  · exact .inr ((if_neg (by omega)).trans (if_pos hhigh))

theorem range_of_bitMem {a : BusAddr} (h : regionOf a = .bitMem) : 0x1000 ≤ a.toNat ∧ a.toNat < 0x1200 := by
  unfold regionOf at h
  split_ifs at h
  omega

theorem range_of_sigMem {a : BusAddr} (h : regionOf a = .sigMem) : 0x40000 ≤ a.toNat ∧ a.toNat < 0x80000 := by
  unfold regionOf at h
  split_ifs at h
  omega

theorem csrAt_reserved {off : Nat} (h : 0x58 ≤ off) : csrAt off = none := by
  unfold csrAt
  split
  case h_23 => rfl
  all_goals omega

/-- The registers the host cannot write, by offset (R45). -/
theorem csrAt_readOnly {off : Nat} (h : off ∈ [0x00, 0x04, 0x18, 0x1C, 0x40, 0x44, 0x50, 0x54]) :
    off < 0x100 ∧ off % 4 = 0 ∧ ∃ c, csrAt off = some c ∧ ∀ (s : State) (v : Word), s.writeCsr c v = s := by
  simp only [List.mem_cons, List.not_mem_nil, or_false] at h
  rcases h with rfl | rfl | rfl | rfl | rfl | rfl | rfl | rfl <;>
    exact ⟨by decide, by decide, _, rfl, fun _ _ => rfl⟩

/-- An aligned word of BIT_MEM or SIG_MEM lies in its buffer whole. -/
theorem bitMem_word_inBuffer {a : BusAddr} (ha : aligned a = true) (h : regionOf a = .bitMem) :
    WordsInBuffer a.toNat 1 := fun x hlow hhigh => by
  have hmod := mod_of_aligned ha
  have hrange := range_of_bitMem h
  refine bitWords_inBuffer (n := 128) le_rfl x ?_ ?_ <;> unfold Config.bitBase <;> omega

theorem sigMem_word_inBuffer {a : BusAddr} (ha : aligned a = true) (h : regionOf a = .sigMem) :
    WordsInBuffer a.toNat 1 := fun x hlow hhigh => by
  have hmod := mod_of_aligned ha
  have hrange := range_of_sigMem h
  refine sigWords_inBuffer (n := 65536) le_rfl x ?_ ?_ <;> unfold Config.sigBase <;> omega

/-! ## Bus writes -/

/-- Everything a bus write can do (R85): nothing, the write rule of a register, or a word of a buffer. -/
theorem memWrite_cases (s : State) (a : BusAddr) (d : Word) :
    s.memWrite a d = s ∨ (∃ c, s.memWrite a d = s.writeCsr c d) ∨
      (WordsInBuffer a.toNat 1 ∧ s.memWrite a d = s.writeIdle fun s => s.putWords a.toNat [d]) := by
  unfold State.memWrite
  split
  next ha =>
    split
    next =>
      split
      · exact .inr (.inl ⟨_, rfl⟩)
      · exact .inl rfl
    next hr => exact .inr (.inr ⟨bitMem_word_inBuffer ha hr, rfl⟩)
    next => exact .inl rfl
    next => exact .inl rfl
    next hr => exact .inr (.inr ⟨sigMem_word_inBuffer ha hr, rfl⟩)
    next => exact .inl rfl
  next => exact .inl rfl

theorem Inv.memWrite {s : State} (h : Inv s) (hpresetn : s.presetn = true) (a : BusAddr) (d : Word) :
    Inv (s.memWrite a d) := by
  rcases memWrite_cases s a d with heq | ⟨c, heq⟩ | ⟨hb, heq⟩ <;> rw [heq]
  · exact h
  · exact h.writeCsr hpresetn c d
  · exact h.writeIdle (h.putWords hb)

/-- A write to an aligned, mapped address is answered OK (R85). -/
theorem exec_busWr_mapped {s : State} {a : BusAddr} {d : Word} (ha : aligned a = true)
    (hr : regionOf a ≠ .unmapped) :
    exec (.busWr a d) s = .next { s.memWrite a d with reply := some (.writeAck .ok) } := by
  have hok : writeAnswered a = true := by simp [writeAnswered, ha, hr]
  show execBusWr a d s = _
  rw [execBusWr, hok, if_pos rfl]

theorem memWrite_csr {s : State} {a : BusAddr} {d : Word} {c : Csr} (ha : aligned a = true)
    (hr : regionOf a = .csrWindow) (hc : csrAt a.toNat = some c) : s.memWrite a d = s.writeCsr c d := by
  simp [State.memWrite, ha, hr, hc]

/-- A write to a register (R85): its write rule, answered OK. -/
theorem exec_busWr_csr {s : State} {a : BusAddr} {d : Word} {c : Csr} (ha : aligned a = true)
    (hr : regionOf a = .csrWindow) (hc : csrAt a.toNat = some c) :
    exec (.busWr a d) s = .next { s.writeCsr c d with reply := some (.writeAck .ok) } := by
  rw [exec_busWr_mapped ha (by simp [hr]), memWrite_csr ha hr hc]

/-- A write to a register whose rule replaces the CSR file and nothing else. -/
theorem exec_busWr_setCsr {s : State} {a : BusAddr} {v : Word} {c : Csrs} (r : Csr) (ha : aligned a = true)
    (hr : regionOf a = .csrWindow) (hc : csrAt a.toNat = some r) (hrule : s.writeCsr r v = s.setCsr c) :
    exec (.busWr a v) s = .next { s with csr := c, reply := some (.writeAck .ok) } := by
  rw [exec_busWr_csr ha hr hc, hrule]
  rfl

theorem exec_busWr_ignored {s : State} {a : BusAddr} {v : Word} (ha : aligned a = true)
    (hr : regionOf a ≠ .unmapped) (hw : s.memWrite a v = s) :
    exec (.busWr a v) s = .next { s with reply := some (.writeAck .ok) } := by
  rw [exec_busWr_mapped ha hr, hw]

/-! ## The command bodies keep the invariant -/

theorem Inv.genbitsBody {s : State} (h : Inv s) (hcheck : genbitsCheck s = none) : Inv (genbitsBody s) := by
  obtain ⟨_, hcap⟩ := genbitsCheck_none hcheck
  have hput : Inv (s.putWords Config.bitBase (genbitsWords s)) :=
    h.putWords (bitWords_inBuffer (by simp [genbitsWords]; omega))
  exact { hput with brngNonzero := rngAfter_ne_zero _ h.brngNonzero }

@[simp] theorem mapEntries_length (c : Scheme) (s : State) : (mapEntries c s).length = 2 * mapCount c s := by
  simp [mapEntries]

theorem Inv.mapBody {s : State} (h : Inv s) {c : Scheme} (hpos : 1 ≤ mapCount c s) (hcap : mapCount c s ≤ 4096) :
    Inv (mapBody c s) := by
  have hstore : Inv (s.storeResults Config.symBase (mapEntries c s)) :=
    h.storeResults (symWords_inBuffer (by rw [mapEntries_length]; omega))
  obtain ⟨hlegal, hne⟩ := schemeInfo_legal c
  have hcount : (BitVec.ofNat 32 (mapCount c s)).toNat = mapCount c s := by
    rw [BitVec.toNat_ofNat]; omega
  have hcount_ne : BitVec.ofNat 32 (mapCount c s) ≠ 0#32 := fun h0 => by
    rw [h0, BitVec.toNat_ofNat] at hcount; omega
  exact { hstore with
    symCountRange := hcount.trans_le hcap
    symInfoLegal := hlegal
    symNone := ⟨fun h0 => absurd h0 hne, fun h0 => absurd h0 hcount_ne⟩ }

theorem Inv.synthBody {s : State} (h : Inv s) (hcap : synthCount s ≤ 65536) : Inv (synthBody s) := by
  have hstore : Inv (s.storeResults Config.sigBase ((List.range (synthCount s)).map (synthSample s))) :=
    h.storeResults (sigWords_inBuffer (by simpa using hcap))
  exact { hstore with
    sigInfoReserved := by
      show infoWord (kindOf s.csr.symInfo) (schemeOf s.csr.symInfo) &&& _ = _
      rw [infoWord_carry]
      exact and_reserved (by decide) _ }

theorem Inv.noiseBody {s : State} (h : Inv s) (hcap : s.sigCountVal ≤ 65536) : Inv (noiseBody s) := by
  have hstore : Inv (s.storeResults Config.sigBase (noisySamples s s.sigCountVal 0 s.csr.nrng)) :=
    h.storeResults (sigWords_inBuffer (by simpa using hcap))
  unfold Machine.noiseBody
  split
  · exact h
  · exact { hstore with
      sigInfoReserved := or_reserved h.sigInfoReserved (by decide)
      nrngNonzero := rngAfter_ne_zero _ h.nrngNonzero }

@[simp] theorem demodEntries_length (s : State) : (demodEntries s).length = 2 * demodCount s := by
  simp [demodEntries]

/-- DEMOD leaves an EMPTY result for a TONE signal (R243) and a VALID one otherwise (R241). -/
theorem Inv.demodBody {s : State} (h : Inv s) (hcap : kindOf s.csr.sigInfo ≠ 2 → demodCount s ≤ 4096) :
    Inv (demodBody s) := by
  unfold Machine.demodBody
  split
  next =>
    have hkind : kindOf (infoWord 2 (schemeOf s.csr.sigInfo)) = 2 := kindOf_infoWord _ _
    exact { h with
      estCountRange := Nat.zero_le _
      estInfoReserved := infoWord_empty_reserved _
      estKindLegal := by simp [hkind]
      estEmpty := fun _ => ⟨rfl, infoWord_empty_dgain _⟩ }
  next hiq =>
    have hstore : Inv (s.storeResults Config.estBase (demodEntries s)) :=
      h.storeResults (estWords_inBuffer (by have := hcap hiq; rw [demodEntries_length]; omega))
    exact { hstore with
      estCountRange := by
        show (BitVec.ofNat 32 (demodCount s)).toNat ≤ 4096
        rw [BitVec.toNat_ofNat]
        exact (Nat.mod_le _ _).trans (hcap hiq)
      estInfoReserved := estInfoValid_reserved s
      estKindLegal := by simp [kindOf_estInfoValid]
      estEmpty := fun hne => absurd (kindOf_estInfoValid s) hne }

/-! ### The four stages of RUN (R261): the counts each stage hands to the next -/

theorem synthCount_mapBody {c : Scheme} {s : State} (hcap : mapCount c s ≤ 4096) :
    synthCount (mapBody c s) = mapCount c s * s.nspsVal := by
  show (BitVec.ofNat 32 (mapCount c s)).toNat * s.nspsVal = _
  rw [BitVec.toNat_ofNat, Nat.mod_eq_of_lt (by omega)]

theorem nspsVal_mapBody (c : Scheme) (s : State) : (mapBody c s).nspsVal = s.nspsVal := rfl

theorem sigCountVal_synthBody {s : State} (hcap : synthCount s ≤ 65536) :
    (synthBody s).sigCountVal = synthCount s := by
  show (BitVec.ofNat 32 (synthCount s)).toNat = _
  rw [BitVec.toNat_ofNat, Nat.mod_eq_of_lt (by omega)]

theorem nspsVal_synthBody (s : State) : (synthBody s).nspsVal = s.nspsVal := rfl

theorem demodCount_noiseBody (s : State) : demodCount (noiseBody s) = s.sigCountVal / s.nspsVal := by
  unfold Machine.noiseBody
  split <;> rfl

/-- The number of symbols when NBITS is a positive multiple of the bits per symbol. -/
theorem mapCount_range {c : Scheme} {s : State} (hlow : bps c ≤ s.nbitsVal) (hcap : s.nbitsVal ≤ 4096) :
    1 ≤ mapCount c s ∧ mapCount c s ≤ 4096 := by
  have hb : 0 < bps c := by rcases bps_cases c with h | h | h <;> omega
  exact ⟨(Nat.le_div_iff_mul_le hb).mpr (by omega), (mapCount_le c s).trans hcap⟩

theorem Inv.runBody {s : State} (h : Inv s) {c : Scheme} (hcheck : runCheck c s = none) : Inv (runBody c s) := by
  obtain ⟨hlow, _, hnbits, hnsps, hsamples, _⟩ := runCheck_none hcheck
  obtain ⟨hpos, hcap⟩ := mapCount_range hlow hnbits
  have hsynth : synthCount (Machine.mapBody c s) = mapCount c s * s.nspsVal := synthCount_mapBody hcap
  have hsynth_cap : synthCount (Machine.mapBody c s) ≤ 65536 := hsynth.trans_le hsamples
  have hsig : (Machine.synthBody (Machine.mapBody c s)).sigCountVal = mapCount c s * s.nspsVal :=
    (sigCountVal_synthBody hsynth_cap).trans hsynth
  have hdemod : demodCount (Machine.noiseBody (Machine.synthBody (Machine.mapBody c s))) = mapCount c s := by
    rw [demodCount_noiseBody, hsig, nspsVal_synthBody, nspsVal_mapBody]
    exact Nat.mul_div_cancel _ hnsps
  have hmapped := h.mapBody hpos hcap
  have hsynthesised := hmapped.synthBody hsynth_cap
  have hnoisy := hsynthesised.noiseBody (hsig.trans_le hsamples)
  exact hnoisy.demodBody fun _ => hdemod.trans_le hcap

/-! ## Every instruction keeps the invariant -/

theorem Inv.command {i : Instr} {s t : State} (h : Inv s) (hr : ∀ a, i ≠ .busRd a) (hw : ∀ a d, i ≠ .busWr a d)
    (hexec : exec i s = .next t) : Inv t := by
  rcases exec_command_cases hr hw hexec with ⟨e, rfl⟩ | rfl | ⟨hc, rfl⟩ | ⟨c, hc, rfl⟩ | ⟨hc, rfl⟩ | ⟨hc, rfl⟩ |
    ⟨hc, rfl⟩ | ⟨c, hc, rfl⟩ | ⟨_, rfl⟩
  · exact h.raiseError e
  · exact h.complete
  · exact (h.genbitsBody hc).complete
  · obtain ⟨hlow, _, hnbits⟩ := mapCheck_none hc
    obtain ⟨hpos, hcap⟩ := mapCount_range hlow hnbits
    exact (h.mapBody hpos hcap).complete
  · obtain ⟨_, _, hcap⟩ := synthCheck_none hc
    exact (h.synthBody hcap).complete
  · obtain ⟨_, _, _, hcap⟩ := noiseCheck_none hc
    exact (h.noiseBody hcap).complete
  · obtain ⟨_, _, hiq⟩ := demodCheck_none hc
    exact (h.demodBody fun hkind => (hiq hkind).2.2.2).complete
  · exact (h.runBody hc).complete
  · exact inv_of_csr_reset rfl rfl h.canonical

theorem Inv.exec {i : Instr} {s t : State} (h : Inv s) (hpresetn : s.presetn = true)
    (hexec : exec i s = .next t) : Inv t := by
  cases i with
  | busRd a =>
    injection (show execBusRd a s = .next t from hexec) with ht
    exact ht ▸ h.setReply _
  | busWr a d =>
    injection (show execBusWr a d s = .next t from hexec) with ht
    exact ht ▸ (h.memWrite hpresetn a d).setReply _
  | _ => exact h.command (by simp) (by simp) hexec

theorem Inv.engineStep {s t : State} (h : Inv s) (hstep : engineStep s = .next t) : Inv t := by
  rcases engineStep_cases hstep with ⟨_, rfl⟩ | ⟨hbusy, w, i, _, _, hexec⟩ | ⟨_, w, _, _, rfl | rfl⟩
  · exact h
  · have hpresetn : s.presetn = true := by
      by_contra hlow
      exact absurd (hbusy.symm.trans (h.resetIdle (by simpa using hlow))) (by decide)
    exact h.exec hpresetn hexec
  · exact h.raiseError _
  · exact h.raiseError _

theorem Inv.hostStep {b : BusTuple} {s t : State} (h : Inv s) (hstep : hostStep b s = .next t) : Inv t := by
  rcases hostStep_cases hstep with ⟨hpresetn, hexec⟩ | ⟨_, rfl⟩
  · exact h.exec hpresetn hexec
  · exact h.setReply none

/-! ## Reset keeps the invariant -/

/-- The words of a footprint lie in their buffers. -/
def Footprint.Fits (f : Footprint) : Prop := f.bit ≤ 128 ∧ f.sym ≤ 8192 ∧ f.est ≤ 8192 ∧ f.sig ≤ 65536

theorem fits_none : (⟨0, 0, 0, 0⟩ : Footprint).Fits := by unfold Footprint.Fits; decide

/-- A footprint that depends on the command's checks fits if it does when they pass. -/
theorem fits_ite {p : Prop} [Decidable p] {f : Footprint} (h : p → f.Fits) :
    (if p then f else ⟨0, 0, 0, 0⟩).Fits := by
  split
  next hp => exact h hp
  next => exact fits_none

theorem mapFootprint_fits (c : Scheme) (s : State) : (mapFootprint c s).Fits := fits_ite fun hc => by
  obtain ⟨_, _, hnbits⟩ := mapCheck_none hc
  have hcount := mapCount_le c s
  refine ⟨?_, ?_, ?_, ?_⟩ <;> dsimp only <;> omega

theorem runFootprint_fits (c : Scheme) (s : State) : (runFootprint c s).Fits := fits_ite fun hc => by
  obtain ⟨_, _, hnbits, _, hsamples, _⟩ := runCheck_none hc
  have hcount := mapCount_le c s
  refine ⟨Nat.zero_le _, ?_, ?_, hsamples⟩ <;> dsimp only
  · omega
  · split <;> omega

theorem footprint_fits (i : Instr) (s : State) : (footprint i s).Fits := by
  cases i with
  | nop | sreset | busRd | busWr => exact fits_none
  | mapAsk | mapFsk | mapBpsk | mapQpsk | mapQam16 => exact mapFootprint_fits _ s
  | runAsk | runFsk | runBpsk | runQpsk | runQam16 => exact runFootprint_fits _ s
  | genbits =>
    refine fits_ite fun hc => ?_
    obtain ⟨_, hnbits⟩ := genbitsCheck_none hc
    refine ⟨?_, Nat.zero_le _, Nat.zero_le _, Nat.zero_le _⟩
    dsimp only; omega
  | synth =>
    refine fits_ite fun hc => ?_
    obtain ⟨_, _, hcap⟩ := synthCheck_none hc
    exact ⟨Nat.zero_le _, Nat.zero_le _, Nat.zero_le _, hcap⟩
  | noise =>
    refine fits_ite fun ⟨hc, _⟩ => ?_
    obtain ⟨_, _, _, hcap⟩ := noiseCheck_none hc
    exact ⟨Nat.zero_le _, Nat.zero_le _, Nat.zero_le _, hcap⟩
  | demod =>
    refine fits_ite fun ⟨hc, hkind⟩ => ?_
    obtain ⟨_, _, hiq⟩ := demodCheck_none hc
    obtain ⟨_, _, _, hcap⟩ := hiq hkind
    refine ⟨Nat.zero_le _, Nat.zero_le _, ?_, Nat.zero_le _⟩
    dsimp only; omega

theorem pendingFootprint_fits (s : State) : s.pendingFootprint.Fits := by
  unfold State.pendingFootprint
  split
  next =>
    split
    next =>
      split
      next i _ => exact footprint_fits i s
      next => exact fits_none
    next => exact fits_none
  next => exact fits_none

@[simp] theorem lostWords_length (s : State) (base n : Nat) : (lostWords s base n).length = n := by
  simp [lostWords]

theorem abandonPending_canonical {s : State} (hm : s.mem.Canonical) : s.abandonPending.mem.Canonical := by
  obtain ⟨hbit, hsym, hest, hsig⟩ := pendingFootprint_fits s
  exact (((hm.putWords (bitWords_inBuffer (by simpa using hbit))).putWords
    (symWords_inBuffer (by simpa using hsym))).putWords
    (estWords_inBuffer (by simpa using hest))).putWords (sigWords_inBuffer (by simpa using hsig))

theorem Memory.canonical_nil : Memory.Canonical [] := ⟨rfl, rfl⟩

theorem Inv.assertReset {s : State} (h : Inv s) : Inv s.assertReset :=
  inv_of_csr_reset rfl rfl (abandonPending_canonical h.canonical)

theorem Inv.releaseReset {s : State} (h : Inv s) : Inv s.releaseReset := { h with resetIdle := nofun }

theorem inv_cyclePower (s : State) : Inv s.cyclePower := inv_of_csr_reset rfl rfl Memory.canonical_nil

/-! ## The obligations -/

/-- Settles O49, by the cases of the step: each agent's turn, and each of the inputs of reset and power, keeps the
invariant. -/
theorem everyStepKeepsTheInvariant : Obligations.EveryStepKeepsTheInvariant := by
  intro s t h hstep
  rcases step_cases hstep with ⟨_, hengine⟩ | ⟨b, _, _, hhost⟩ | ⟨_, rfl⟩ | ⟨_, rfl⟩ | ⟨_, rfl⟩
  · exact h.beginStep.engineStep hengine
  · exact h.beginStep.hostStep hhost
  · exact h.beginStep.assertReset
  · exact h.beginStep.releaseReset
  · exact inv_cyclePower s.beginStep

/-- Settles O48. -/
theorem invariantHoldsAtReset : Obligations.InvariantHoldsAtReset := inv_reset

/-- Settles O28: each of the eleven registers with its own write rule. -/
theorem configurationWriteWhileIdle : Obligations.ConfigurationWriteWhileIdle := by
  intro s v hidle
  simp only [List.forall_mem_cons]
  refine ⟨exec_busWr_setCsr .ctrl rfl rfl rfl ?_,
    exec_busWr_setCsr .nbits rfl rfl rfl ?_,
    exec_busWr_setCsr .nsps rfl rfl rfl ?_,
    exec_busWr_setCsr .amp rfl rfl rfl ?_,
    exec_busWr_setCsr .carFcw rfl rfl rfl ?_,
    exec_busWr_setCsr .devFcw rfl rfl rfl ?_,
    exec_busWr_setCsr .sigma rfl rfl rfl ?_,
    exec_busWr_setCsr .brng rfl rfl rfl ?_,
    exec_busWr_setCsr .nrng rfl rfl rfl ?_,
    exec_busWr_setCsr .sigCount rfl rfl rfl ?_,
    exec_busWr_setCsr .sigInfo rfl rfl rfl ?_, nofun⟩
  all_goals
    rw [State.writeCsr]
    exact writeIdle_of_idle hidle _

/-- Settles O31: the write rule of STATUS acts whatever BUSY is. -/
theorem statusWriteClearsTheWrittenBits : Obligations.StatusWriteClearsTheWrittenBits := by
  intro s v
  obtain ⟨hcode, hcmd⟩ := writeStatus_record s v
  refine ⟨{ s.writeStatus v with reply := some (.writeAck .ok) }, exec_busWr_csr (c := .status) rfl rfl rfl,
    fun i hi => writeStatus_bit s v hi, ?cleared, ?kept, ?csrs, rfl, rfl, rfl, rfl, rfl, rfl, rfl⟩
  case cleared => exact fun hv => ⟨hcode.trans (if_pos hv), hcmd.trans (if_pos hv)⟩
  case kept => exact fun hv => ⟨hcode.trans (if_neg (hv.trans_ne Bool.false_ne_true)),
    hcmd.trans (if_neg (hv.trans_ne Bool.false_ne_true))⟩
  case csrs =>
    intro c hc
    cases c with
    | status | errCode | errCmd => simp at hc
    | _ => rfl

/-- Settles O32: the write rule of IRQ_EN does not ask for BUSY. -/
theorem irqEnWriteTakesEffectAtAnyTime : Obligations.IrqEnWriteTakesEffectAtAnyTime := fun _ _ =>
  exec_busWr_setCsr .irqEn rfl rfl rfl rfl

/-- Settles O33: a register whose write rule does nothing, an offset with no register, and a buffer the host cannot
write. -/
theorem writesToReadOnlyTargetsAreIgnored : Obligations.WritesToReadOnlyTargetsAreIgnored := by
  intro s v a htarget
  rcases htarget with hcsr | ⟨hmod, hlow, hhigh⟩ | ⟨hmod, hbuffer⟩
  · obtain ⟨hwindow, hmod, c, hc, hkeeps⟩ := csrAt_readOnly hcsr
    have ha := aligned_of_mod hmod
    have hr := regionOf_csrWindow hwindow
    exact exec_busWr_ignored ha (by simp [hr]) ((memWrite_csr ha hr hc).trans (hkeeps s v))
  · have ha := aligned_of_mod hmod
    have hr := regionOf_csrWindow hhigh
    exact exec_busWr_ignored ha (by simp [hr]) (by simp [State.memWrite, ha, hr, csrAt_reserved hlow])
  · have ha := aligned_of_mod hmod
    rcases regionOf_readOnlyBuffer hbuffer with hr | hr <;>
      exact exec_busWr_ignored ha (by simp [hr]) (by simp [State.memWrite, ha, hr])

end Sys2Proof.Machine

/-! Proofs about spec/20_memory.md: what the slave answers to a read, a write and an access it cannot serve
(R81 to R97), and that a state with the invariant always steps on. The address map and the two bus transactions
get one lemma per region here, and the obligations follow from those. -/

namespace Sys2Proof.Machine

open Sys2Proof.Claims

/-! ## The address map on numbers (R81) -/

/-- The two buffers that the host can write. -/
theorem regionOf_writableBuffer {a : BusAddr} (h : HostWritableBuffer a.toNat) :
    regionOf a = .bitMem ∨ regionOf a = .sigMem := by
  unfold HostWritableBuffer at h
  simp only [regionOf, ite_eq_iff, reduceCtorEq, and_false, and_true, false_or, or_false]
  omega

theorem regionOf_unmapped {a : BusAddr} (h : Unmapped a.toNat) : regionOf a = .unmapped := by
  unfold Unmapped at h
  simp only [regionOf, ite_eq_iff, reduceCtorEq, and_false, and_true, false_or]
  omega

theorem regionOf_buffer {a : BusAddr} (h : HostWritableBuffer a.toNat ∨ HostReadOnlyBuffer a.toNat) :
    regionOf a ∈ [Region.bitMem, .sigMem, .symMem, .estMem] := by
  rcases h with hwritable | hreadOnly
  · rcases regionOf_writableBuffer hwritable with hr | hr <;> simp [hr]
  · rcases regionOf_readOnlyBuffer hreadOnly with hr | hr <;> simp [hr]

/-- The byte address of each register (10_state.md R55). -/
def csrAddr : Csr → BusAddr
  | .id => 0x00000#20
  | .caps => 0x00004#20
  | .ctrl => 0x00008#20
  | .status => 0x0000C#20
  | .irqEn => 0x00010#20
  | .cmd => 0x00014#20
  | .errCode => 0x00018#20
  | .errCmd => 0x0001C#20
  | .nbits => 0x00020#20
  | .nsps => 0x00024#20
  | .amp => 0x00028#20
  | .carFcw => 0x0002C#20
  | .devFcw => 0x00030#20
  | .sigma => 0x00034#20
  | .brng => 0x00038#20
  | .nrng => 0x0003C#20
  | .symCount => 0x00040#20
  | .symInfo => 0x00044#20
  | .sigCount => 0x00048#20
  | .sigInfo => 0x0004C#20
  | .estCount => 0x00050#20
  | .estInfo => 0x00054#20

theorem csrAt_csrAddr (c : Csr) : csrAt (csrAddr c).toNat = some c := by cases c <;> rfl

theorem aligned_csrAddr (c : Csr) : aligned (csrAddr c) = true := by cases c <;> rfl

theorem regionOf_csrAddr (c : Csr) : regionOf (csrAddr c) = .csrWindow := by cases c <;> rfl

/-! ## Bus reads (R84) -/

/-- While BUSY = 0 no register is hidden from the host. -/
theorem seenCsr_of_idle {s : State} (hidle : s.busy = false) (a : BusAddr) (c : Csr) :
    s.seenCsr a c = s.csrValue c := by
  cases c <;> simp [State.seenCsr, State.seenStatus, hidle, State.csrValue]

theorem memRead_csr {s : State} {a : BusAddr} {c : Csr} (ha : aligned a = true) (hr : regionOf a = .csrWindow)
    (hc : csrAt a.toNat = some c) : s.memRead a = .readData .ok (s.seenCsr a c) := by
  simp [State.memRead, ha, hr, hc]

/-- A reserved offset reads 0 (R45), whatever BUSY is. -/
theorem memRead_reserved {s : State} {a : BusAddr} (ha : aligned a = true) (hlow : 0x58 ≤ a.toNat)
    (hhigh : a.toNat < 0x100) : s.memRead a = .readData .ok 0#32 := by
  simp [State.memRead, ha, regionOf_csrWindow hhigh, csrAt_reserved hlow]

theorem memRead_buffer {s : State} {a : BusAddr} (ha : aligned a = true)
    (hr : regionOf a ∈ [Region.bitMem, .sigMem, .symMem, .estMem]) :
    s.memRead a = .readData .ok (s.seenBuffer a) := by
  simp only [List.mem_cons, List.not_mem_nil, or_false] at hr
  rcases hr with hr | hr | hr | hr <;> simp [State.memRead, ha, hr]

theorem exec_busRd (a : BusAddr) (s : State) :
    exec (.busRd a) s = .next { s with reply := some (s.memRead a) } := rfl

theorem exec_busRd_csr_of_idle {s : State} (hidle : s.busy = false) (c : Csr) :
    exec (.busRd (csrAddr c)) s = .next { s with reply := some (.readData .ok (s.csrValue c)) } := by
  rw [exec_busRd, memRead_csr (aligned_csrAddr c) (regionOf_csrAddr c) (csrAt_csrAddr c), seenCsr_of_idle hidle]

theorem exec_busRd_buffer_of_idle {s : State} {a : BusAddr} (hidle : s.busy = false) (hmod : a.toNat % 4 = 0)
    (hbuffer : HostWritableBuffer a.toNat ∨ HostReadOnlyBuffer a.toNat) :
    exec (.busRd a) s = .next { s with reply := some (.readData .ok (s.wordAt a.toNat)) } := by
  have hseen : s.seenBuffer a = s.wordAt a.toNat := if_neg (hidle.trans_ne Bool.false_ne_true)
  rw [exec_busRd, memRead_buffer (aligned_of_mod hmod) (regionOf_buffer hbuffer), hseen]

/-! ## Writes to a buffer (R85) -/

theorem exec_busWr_buffer_of_idle {s : State} {a : BusAddr} (hidle : s.busy = false) (hmod : a.toNat % 4 = 0)
    (hbuffer : HostWritableBuffer a.toNat) (d : Word) :
    exec (.busWr a d) s = .next { s.putWords a.toNat [d] with reply := some (.writeAck .ok) } := by
  have ha := aligned_of_mod hmod
  rcases regionOf_writableBuffer hbuffer with hr | hr <;>
    rw [exec_busWr_mapped ha (by simp [hr])] <;>
    simp [State.memWrite, ha, hr, writeIdle_of_idle hidle]

/-- One word put into the memory reads back in every state that holds the new memory. -/
theorem putWords_wordAt_same {s t : State} {base : Nat} {d : Word} (hmem : t.mem = memPutWords s.mem base [d]) :
    t.wordAt base = d := putWords_wordAt_inside s t base [d] 0 Nat.one_pos hmem

/-! ## Accesses that are answered ERR (R86) -/

/-- The accesses that the slave cannot serve, as the model's address decoding sees them. -/
theorem not_aligned_or_unmapped {a : BusAddr} (h : a.toNat % 4 ≠ 0 ∨ Unmapped a.toNat) :
    aligned a = false ∨ regionOf a = .unmapped :=
  h.imp (fun hmod => by simpa [aligned] using hmod) regionOf_unmapped

theorem memRead_of_error {s : State} {a : BusAddr} (h : aligned a = false ∨ regionOf a = .unmapped) :
    s.memRead a = .readData .err 0#32 := by
  rcases h with ha | hr
  · simp [State.memRead, ha]
  · simp [State.memRead, hr]

theorem memWrite_of_error {s : State} {a : BusAddr} (h : aligned a = false ∨ regionOf a = .unmapped) (d : Word) :
    s.memWrite a d = s := by
  rcases h with ha | hr
  · simp [State.memWrite, ha]
  · simp [State.memWrite, hr]

theorem writeAnswered_of_error {a : BusAddr} (h : aligned a = false ∨ regionOf a = .unmapped) :
    writeAnswered a = false := by
  rcases h with ha | hr
  · simp [writeAnswered, ha]
  · simp [writeAnswered, hr]

theorem exec_busWr_of_error {s : State} {a : BusAddr} (h : aligned a = false ∨ regionOf a = .unmapped) (d : Word) :
    exec (.busWr a d) s = .next { s with reply := some (.writeAck .err) } := by
  show execBusWr a d s = _
  rw [execBusWr, memWrite_of_error h, writeAnswered_of_error h, if_neg Bool.false_ne_true]

/-! ## Every command goes on from a live noise generator (40_kernels.md R151, R152) -/

theorem noiseStuck_of_nrng_ne_zero {s : State} (hnrng : s.csr.nrng ≠ 0#32) (m : Nat) : noiseStuck s m = false := by
  simp [noiseStuck, hnrng]

theorem finishCommand_goesOn (s : State) (check : Option CmdError) (body : State → State) :
    ∃ t, finishCommand s check body = .next t := ⟨_, finishCommand_next s check body⟩

theorem execNoise_goesOn {s : State} (hnrng : s.csr.nrng ≠ 0#32) : ∃ t, execNoise s = .next t := by
  rw [execNoise, noiseStuck_of_nrng_ne_zero hnrng, if_neg (by simp)]
  exact finishCommand_goesOn _ _ _

theorem runCommand_goesOn {s : State} (hnrng : s.csr.nrng ≠ 0#32) (c : Scheme) :
    ∃ t, runCommand c s = .next t := by
  rw [runCommand, noiseStuck_of_nrng_ne_zero hnrng, if_neg (by simp)]
  exact finishCommand_goesOn _ _ _

theorem exec_goesOn {s : State} (hnrng : s.csr.nrng ≠ 0#32) (i : Instr) : ∃ t, exec i s = .next t := by
  cases i with
  | nop => exact finishCommand_goesOn s none id
  | genbits | mapAsk | mapFsk | mapBpsk | mapQpsk | mapQam16 | synth | demod =>
    exact finishCommand_goesOn _ _ _
  | noise => exact execNoise_goesOn hnrng
  | runAsk | runFsk | runBpsk | runQpsk | runQam16 => exact runCommand_goesOn hnrng _
  | sreset | busRd | busWr => exact ⟨_, rfl⟩

/-- The engine goes on: while BUSY = 1 the invariant gives it a word to run, and that word is run or rejected. -/
theorem Inv.engineStep_goesOn {s : State} (h : Inv s) : ∃ t, Machine.engineStep s = .next t := by
  cases hbusy : s.busy
  case false => exact ⟨s, engineStep_of_idle hbusy⟩
  case true =>
    obtain ⟨w, hpend⟩ := Option.isSome_iff_exists.mp (h.busyHasCommand.symm.trans hbusy)
    cases hdecode : decode (.command w) with
    | instr i =>
      rw [engineStep_of_instr hbusy hpend hdecode]
      exact exec_goesOn h.nrngNonzero i
    | illegal | mapBadScheme | runBadScheme =>
      simp [Machine.engineStep, hbusy, hpend, hdecode]

theorem Inv.hostStep_goesOn {s : State} (h : Inv s) (b : BusTuple) : ∃ t, Machine.hostStep b s = .next t := by
  cases hpresetn : s.presetn
  case false => simp [Machine.hostStep, hpresetn]
  case true =>
    rw [hostStep_of_instr hpresetn rfl]
    exact exec_goesOn h.nrngNonzero _

/-! ## The obligations -/

/-- Settles O27. -/
theorem busErrorChangesNothing : Obligations.BusErrorChangesNothing := by
  intro s a d haccess
  have herror := not_aligned_or_unmapped haccess
  refine ⟨?_, exec_busWr_of_error herror d, rfl, rfl⟩
  rw [exec_busRd, memRead_of_error herror]

/-- Settles O25: each register at its address, then the reserved offsets, then the buffers. -/
theorem busReadWhileIdle : Obligations.BusReadWhileIdle := by
  intro s hidle
  refine ⟨?registers, ?reserved, ?buffers⟩
  case registers =>
    have register := exec_busRd_csr_of_idle hidle
    simp only [List.forall_mem_cons]
    exact ⟨register .id, register .caps, register .ctrl, register .status, register .irqEn, register .cmd,
      register .errCode, register .errCmd, register .nbits, register .nsps, register .amp, register .carFcw,
      register .devFcw, register .sigma, register .brng, register .nrng, register .symCount, register .symInfo,
      register .sigCount, register .sigInfo, register .estCount, register .estInfo, nofun⟩
  case reserved =>
    intro a hmod hlow hhigh
    rw [exec_busRd, memRead_reserved (aligned_of_mod hmod) hlow hhigh]
  case buffers => exact fun a hmod hbuffer => exec_busRd_buffer_of_idle hidle hmod hbuffer

/-- Settles O34: the write is one word put into the memory, so the laws of `putWords` give the word and the frame, and
the read of the next state finds BUSY still 0. -/
theorem bufferWriteReadsBack : Obligations.BufferWriteReadsBack := by
  intro s a d hidle hmod hbuffer
  refine ⟨_, exec_busWr_buffer_of_idle hidle hmod hbuffer d, putWords_wordAt_same rfl, ?frame,
    rfl, rfl, rfl, rfl, rfl, rfl, rfl, ?read⟩
  case frame =>
    intro x houtside
    unfold InWords at houtside
    exact putWords_byteAt_outside s _ a.toNat [d] x rfl rfl (by rw [List.length_singleton]; omega)
  case read =>
    rw [exec_busRd_buffer_of_idle (by exact hidle) hmod (.inl hbuffer), putWords_wordAt_same (s := s) (by rfl)]

/-- Settles O50, by the input that the step takes: the engine and the host go on under the invariant, and reset and
power always do. -/
theorem noStepStops : Obligations.NoStepStops := by
  intro s h
  unfold step
  split
  · exact h.beginStep.engineStep_goesOn
  · exact h.beginStep.engineStep_goesOn
  · exact h.beginStep.hostStep_goesOn _
  · exact ⟨_, rfl⟩
  · exact ⟨_, rfl⟩
  · exact ⟨_, rfl⟩

end Sys2Proof.Machine

/-! Proofs about spec/30_encoding.md: the decoder against the opcode map of R119 and the tuple of R124, what its
rejections end in (R116, R282, R283), and that the operands of R114 stay as they are. The decoder gets one lemma per
row of R120, on the word's number; the obligations follow from these. -/

namespace Sys2Proof.Machine

open Sys2Proof.Claims

/-! ## The fields of a command word on its number (R111) -/

theorem opField_toNat (w : Word) : (opField w).toNat = w.toNat % 16 := by simp [opField]

theorem schField_toNat (w : Word) : (schField w).toNat = w.toNat / 16 % 8 := by
  simp [schField, Nat.shiftRight_eq_div_pow]

theorem rsvField_eq_zero_iff (w : Word) : rsvField w = 0#25 ↔ w.toNat / 128 = 0 := by
  have hfield : (rsvField w).toNat = w.toNat / 128 % 2 ^ 25 := by simp [rsvField, Nat.shiftRight_eq_div_pow]
  rw [← BitVec.toNat_inj, hfield, Nat.mod_eq_of_lt (by have := w.isLt; omega)]
  rfl

/-- The opcodes that take no scheme, with their instructions (R112). -/
def plainOps : List (Nat × Instr) :=
  [(0, .nop), (1, .genbits), (3, .synth), (4, .noise), (5, .demod), (15, .sreset)]

/-- Every opcode takes no scheme, is MAP's or RUN's, or is reserved (R112). -/
theorem op_cases (w : Word) :
    (∃ i, (w.toNat % 16, i) ∈ plainOps) ∨ w.toNat % 16 = 2 ∨ w.toNat % 16 = 6 ∨
      (7 ≤ w.toNat % 16 ∧ w.toNat % 16 ≤ 14) := by
  have hlt : w.toNat % 16 < 16 := Nat.mod_lt _ (by decide)
  generalize w.toNat % 16 = op at hlt ⊢
  by_cases hplain : op ∈ plainOps.map Prod.fst
  · obtain ⟨⟨_, i⟩, hmem, rfl⟩ := List.mem_map.mp hplain
    exact .inl ⟨i, hmem⟩
  · simp only [plainOps, List.map_cons, List.map_nil, List.mem_cons, List.not_mem_nil, or_false] at hplain
    omega

/-- Every value of SCH is the code of a scheme or one of the three without (R113). -/
theorem scheme_cases (n : Nat) : (∃ c, n = schemeCode c) ∨ 5 ≤ n := by
  rcases Nat.lt_or_ge n 5 with hlt | hge
  · have hcode : ∀ k < 5, ∃ c ∈ [Scheme.ask, .fsk, .bpsk, .qpsk, .qam16], k = schemeCode c := by decide
    obtain ⟨c, _, hc⟩ := hcode n hlt
    exact .inl ⟨c, hc⟩
  · exact .inr hge

/-! ## The rows of the decoding procedure (R120) -/

theorem decodeCommand_of_rsv {w : Word} (hrsv : w.toNat / 128 ≠ 0) : decodeCommand w = .illegal :=
  if_pos (mt (rsvField_eq_zero_iff w).mp hrsv)

theorem decodeCommand_of_reservedOp {w : Word} (hlow : 7 ≤ w.toNat % 16) (hhigh : w.toNat % 16 ≤ 14) :
    decodeCommand w = .illegal := by
  unfold decodeCommand
  rw [opField_toNat]
  split
  · rfl
  · split
    case h_9 => rfl
    all_goals omega

theorem decodeCommand_of_plainOp {w : Word} {i : Instr} (hrsv : w.toNat / 128 = 0)
    (hop : (w.toNat % 16, i) ∈ plainOps) : decodeCommand w = decodePlain i (schField w) := by
  simp only [plainOps, List.mem_cons, Prod.mk.injEq, List.not_mem_nil, or_false] at hop
  rcases hop with ⟨hop, rfl⟩ | ⟨hop, rfl⟩ | ⟨hop, rfl⟩ | ⟨hop, rfl⟩ | ⟨hop, rfl⟩ | ⟨hop, rfl⟩ <;>
    simp [decodeCommand, (rsvField_eq_zero_iff w).mpr hrsv, opField_toNat, hop]

theorem decodeCommand_of_mapOp {w : Word} (hrsv : w.toNat / 128 = 0) (hop : w.toNat % 16 = 2) :
    decodeCommand w = decodeMap (schField w) := by
  simp [decodeCommand, (rsvField_eq_zero_iff w).mpr hrsv, opField_toNat, hop]

theorem decodeCommand_of_runOp {w : Word} (hrsv : w.toNat / 128 = 0) (hop : w.toNat % 16 = 6) :
    decodeCommand w = decodeRun (schField w) := by
  simp [decodeCommand, (rsvField_eq_zero_iff w).mpr hrsv, opField_toNat, hop]

/-- Neither MAP nor RUN is an operation without a scheme. -/
theorem plainOp_ne {op : Nat} {i : Instr} (hop : (op, i) ∈ plainOps) : op ≠ 2 ∧ op ≠ 6 := by
  constructor <;> rintro rfl <;> simp [plainOps] at hop

/-! ### An operation without a scheme (R115) -/

theorem decodeCommand_plain {w : Word} {i : Instr} (hhigh : w.toNat / 16 = 0)
    (hop : (w.toNat % 16, i) ∈ plainOps) : decodeCommand w = .instr i := by
  have hsch : schField w = 0#3 := by
    rw [← BitVec.toNat_inj, schField_toNat, hhigh]; rfl
  rw [decodeCommand_of_plainOp (by omega) hop, decodePlain, if_pos hsch]

theorem decodeCommand_of_strayScheme {w : Word} (hmap : w.toNat % 16 ≠ 2) (hrun : w.toNat % 16 ≠ 6)
    (hsch : w.toNat / 16 % 8 ≠ 0) : decodeCommand w = .illegal := by
  by_cases hrsv : w.toNat / 128 = 0
  · rcases op_cases w with ⟨i, hplain⟩ | hop | hop | ⟨hlow, hhigh⟩
    · have hfield : schField w ≠ 0#3 := fun hzero => hsch (by rw [← schField_toNat, hzero]; rfl)
      rw [decodeCommand_of_plainOp hrsv hplain, decodePlain, if_neg hfield]
    · exact absurd hop hmap
    · exact absurd hop hrun
    · exact decodeCommand_of_reservedOp hlow hhigh
  · exact decodeCommand_of_rsv hrsv

/-! ### MAP and RUN (R113, R116) -/

theorem decodeMap_of_code {f : BitVec 3} (c : Scheme) (h : f.toNat = schemeCode c) :
    decodeMap f = .instr (mapOf c) := by
  unfold decodeMap
  cases c <;> rw [h] <;> rfl

theorem decodeRun_of_code {f : BitVec 3} (c : Scheme) (h : f.toNat = schemeCode c) :
    decodeRun f = .instr (runOf c) := by
  unfold decodeRun
  cases c <;> rw [h] <;> rfl

theorem decodeMap_of_noScheme {f : BitVec 3} (h : 5 ≤ f.toNat) : decodeMap f = .mapBadScheme := by
  unfold decodeMap
  split
  case h_6 => rfl
  all_goals omega

theorem decodeRun_of_noScheme {f : BitVec 3} (h : 5 ≤ f.toNat) : decodeRun f = .runBadScheme := by
  unfold decodeRun
  split
  case h_6 => rfl
  all_goals omega

theorem schField_of_rsvClear {w : Word} (hrsv : w.toNat / 128 = 0) : (schField w).toNat = w.toNat / 16 := by
  rw [schField_toNat]; omega

theorem decodeCommand_map {w : Word} (hrsv : w.toNat / 128 = 0) (hop : w.toNat % 16 = 2) (c : Scheme)
    (hsch : w.toNat / 16 = schemeCode c) : decodeCommand w = .instr (mapOf c) := by
  rw [decodeCommand_of_mapOp hrsv hop, decodeMap_of_code c ((schField_of_rsvClear hrsv).trans hsch)]

theorem decodeCommand_run {w : Word} (hrsv : w.toNat / 128 = 0) (hop : w.toNat % 16 = 6) (c : Scheme)
    (hsch : w.toNat / 16 = schemeCode c) : decodeCommand w = .instr (runOf c) := by
  rw [decodeCommand_of_runOp hrsv hop, decodeRun_of_code c ((schField_of_rsvClear hrsv).trans hsch)]

theorem decodeCommand_mapBadScheme {w : Word} (hrsv : w.toNat / 128 = 0) (hop : w.toNat % 16 = 2)
    (hsch : 5 ≤ w.toNat / 16) : decodeCommand w = .mapBadScheme := by
  rw [decodeCommand_of_mapOp hrsv hop, decodeMap_of_noScheme (hsch.trans_eq (schField_of_rsvClear hrsv).symm)]

theorem decodeCommand_runBadScheme {w : Word} (hrsv : w.toNat / 128 = 0) (hop : w.toNat % 16 = 6)
    (hsch : 5 ≤ w.toNat / 16) : decodeCommand w = .runBadScheme := by
  rw [decodeCommand_of_runOp hrsv hop, decodeRun_of_noScheme (hsch.trans_eq (schField_of_rsvClear hrsv).symm)]

/-! ## Command words decode exactly to what they encode (R119) -/

/-- The word of an operation is its opcode and, above it, its scheme's code. -/
theorem encode_plain {op : Nat} {i : Instr} (hop : (op, i) ∈ plainOps) : encode i = .command (BitVec.ofNat 32 op) := by
  simp only [plainOps, List.mem_cons, Prod.mk.injEq, List.not_mem_nil, or_false] at hop
  rcases hop with ⟨rfl, rfl⟩ | ⟨rfl, rfl⟩ | ⟨rfl, rfl⟩ | ⟨rfl, rfl⟩ | ⟨rfl, rfl⟩ | ⟨rfl, rfl⟩ <;> rfl

theorem encode_mapOf (c : Scheme) : encode (mapOf c) = .command (BitVec.ofNat 32 (16 * schemeCode c + 2)) := by
  cases c <;> rfl

theorem encode_runOf (c : Scheme) : encode (runOf c) = .command (BitVec.ofNat 32 (16 * schemeCode c + 6)) := by
  cases c <;> rfl

/-- Every word is rejected or is the word of an instruction, and then decodes to it. -/
theorem decodeCommand_cases (w : Word) :
    (decodeCommand w = .illegal ∨ decodeCommand w = .mapBadScheme ∨ decodeCommand w = .runBadScheme) ∨
      ∃ i, decodeCommand w = .instr i ∧ encode i = .command w := by
  have word_eq : ∀ {n : Nat}, n = w.toNat → BitVec.ofNat 32 n = w := fun h => by
    rw [h, BitVec.ofNat_toNat, BitVec.setWidth_eq]
  by_cases hrsv : w.toNat / 128 = 0
  case neg => exact .inl (.inl (decodeCommand_of_rsv hrsv))
  rcases op_cases w with ⟨i, hplain⟩ | hop | hop | ⟨hlow, hhigh⟩
  · by_cases hhigh : w.toNat / 16 = 0
    · refine .inr ⟨i, decodeCommand_plain hhigh hplain, ?_⟩
      rw [encode_plain hplain, word_eq (by omega)]
    · obtain ⟨hmap, hrun⟩ := plainOp_ne hplain
      exact .inl (.inl (decodeCommand_of_strayScheme hmap hrun (by omega)))
  · rcases scheme_cases (w.toNat / 16) with ⟨c, hsch⟩ | hsch
    · refine .inr ⟨mapOf c, decodeCommand_map hrsv hop c hsch, ?_⟩
      rw [encode_mapOf, word_eq (by omega)]
    · exact .inl (.inr (.inl (decodeCommand_mapBadScheme hrsv hop hsch)))
  · rcases scheme_cases (w.toNat / 16) with ⟨c, hsch⟩ | hsch
    · refine .inr ⟨runOf c, decodeCommand_run hrsv hop c hsch, ?_⟩
      rw [encode_runOf, word_eq (by omega)]
    · exact .inl (.inr (.inr (decodeCommand_runBadScheme hrsv hop hsch)))
  · exact .inl (.inl (decodeCommand_of_reservedOp hlow hhigh))

theorem encode_of_decodeCommand {w : Word} {i : Instr} (h : decodeCommand w = .instr i) : encode i = .command w := by
  rcases decodeCommand_cases w with (hrej | hrej | hrej) | ⟨j, hj, hencode⟩
  · simp [hrej] at h
  · simp [hrej] at h
  · simp [hrej] at h
  · obtain rfl : j = i := Decoded.instr.inj (hj.symm.trans h)
    exact hencode

theorem decodeCommand_of_encode {w : Word} {i : Instr} (h : encode i = .command w) : decodeCommand w = .instr i := by
  cases i with
  | busRd | busWr => exact Packet.noConfusion h
  | _ => exact Packet.command.inj h ▸ rfl

/-- The legality conditions of R115 and R116 on the word's number. -/
theorem wf_command_iff {w : Word} : (Packet.command w).wf = true ↔
    w.toNat / 128 = 0 ∧ (w.toNat % 16 ≤ 6 ∨ w.toNat % 16 = 15) ∧
      (w.toNat % 16 = 2 ∨ w.toNat % 16 = 6 ∨ w.toNat / 16 % 8 = 0) ∧ w.toNat / 16 % 8 ≤ 4 := by
  simp only [Packet.wf, rsvClear, opDefined, schemeAllowed, schemeKnown, Bool.and_eq_true, Bool.or_eq_true,
    beq_iff_eq, decide_eq_true_eq, and_assoc, or_assoc]

theorem wf_encode (i : Instr) : (encode i).wf = true := by
  cases i <;> rfl

/-! ## The packed bus transaction (R124) -/

/-- Bit by bit: `pwrite` above `paddr` above `pwdata`. -/
theorem packed_bit (b : BitVec 1) (a : BusAddr) (d : Word) (i : Nat) :
    (b ++ a ++ d : BusTuple).getLsbD i =
      if i < 32 then d.getLsbD i else if i - 32 < 20 then a.getLsbD (i - 32) else b.getLsbD (i - 32 - 20) := by
  rw [← BitVec.getLsbD_append (x := b) (y := a)]
  exact BitVec.getLsbD_append

theorem pwrite_packed (b : BitVec 1) (a : BusAddr) (d : Word) :
    (b ++ a ++ d : BusTuple).getLsbD 52 = b.getLsbD 0 := packed_bit b a d 52

theorem paddr_packed (b : BitVec 1) (a : BusAddr) (d : Word) : (b ++ a ++ d : BusTuple).extractLsb' 32 20 = a := by
  apply BitVec.eq_of_getLsbD_eq
  intro i hi
  rw [BitVec.getLsbD_extractLsb', packed_bit]
  simp [hi]

theorem pwdata_packed (b : BitVec 1) (a : BusAddr) (d : Word) : (b ++ a ++ d : BusTuple).extractLsb' 0 32 = d := by
  apply BitVec.eq_of_getLsbD_eq
  intro i hi
  rw [BitVec.getLsbD_extractLsb', packed_bit]
  simp [hi]

/-- A write's tuple is its three fields packed again. -/
theorem packed_fields {t : BusTuple} (h : t.getLsbD 52 = true) :
    1#1 ++ t.extractLsb' 32 20 ++ t.extractLsb' 0 32 = t := by
  apply BitVec.eq_of_getLsbD_eq
  intro i hi
  rw [packed_bit]
  split
  next hdata => simp [hdata]
  next hdata =>
    split
    next haddr => simp [haddr, show 32 + (i - 32) = i by omega]
    next haddr =>
      obtain rfl : i = 52 := by omega
      exact h.symm

theorem decodeTransaction_of_write {t : BusTuple} (h : t.getLsbD 52 = true) :
    decodeTransaction t = .busWr (t.extractLsb' 32 20) (t.extractLsb' 0 32) := if_pos h

theorem decodeTransaction_of_read {t : BusTuple} (h : t.getLsbD 52 = false) :
    decodeTransaction t = .busRd (t.extractLsb' 32 20) := if_neg (h.trans_ne Bool.false_ne_true)

theorem decode_encode (i : Instr) : decode (encode i) = .instr i := by
  cases i with
  | busRd a =>
    show Decoded.instr (decodeTransaction (0#1 ++ a ++ 0#32)) = _
    rw [decodeTransaction_of_read (pwrite_packed 0#1 a 0#32), paddr_packed]
  | busWr a d =>
    show Decoded.instr (decodeTransaction (1#1 ++ a ++ d)) = _
    rw [decodeTransaction_of_write (pwrite_packed 1#1 a d), paddr_packed, pwdata_packed]
  | _ => exact decodeCommand_of_encode rfl

/-! ## Rejected words end in their error (R116, R282, R283) -/

theorem engineStep_of_illegal {s : State} {w : Word} (hbusy : s.busy = true) (hpend : s.pend = some w)
    (hdecode : decodeCommand w = .illegal) : engineStep s = .next (s.raiseError .illegalCmd) := by
  simp [engineStep, hbusy, hpend, decode, hdecode]

theorem engineStep_of_badScheme {s : State} {w : Word} (hbusy : s.busy = true) (hpend : s.pend = some w)
    (hdecode : decodeCommand w = .mapBadScheme ∨ decodeCommand w = .runBadScheme) :
    engineStep s = .next (s.raiseError .scheme) := by
  rcases hdecode with hdecode | hdecode <;> simp [engineStep, hbusy, hpend, decode, hdecode]

/-- Error entry with its record and its frame (R286, R289), for every error. -/
theorem raiseError_errorTaken (s : State) (e : CmdError) : ErrorTaken (errorCode e).toNat s (s.raiseError e) := by
  obtain ⟨hcode, hcmd⟩ := raiseError_record s e
  have hmulti : (s.raiseError e).errMulti = (s.errMulti || s.err) := raiseError_status_bit s e 6 (by decide)
  refine ⟨rfl, raiseError_busy s e, raiseError_status_bit s e 1 (by decide), raiseError_err s e,
    ?first, ?later, ?flags, ?csrs, fun _ _ => rfl, rfl, rfl, rfl, rfl, rfl⟩
  case first =>
    intro hnone
    rw [hcode, hcmd, hmulti, hnone]
    exact ⟨rfl, fun w hpend => by simp [State.pendWord, hpend], Bool.or_false _⟩
  case later =>
    intro herr
    rw [hcode, hcmd, hmulti, herr]
    exact ⟨rfl, rfl, Bool.or_true _⟩
  case flags =>
    intro i hi hother
    simp only [List.mem_cons, List.not_mem_nil, or_false, not_or] at hother
    rw [raiseError_status_bit s e i hi]
    simp [hother]
  case csrs =>
    intro c hc
    exact raiseError_csrValue s e c (by simpa using hc)

/-! ## The configuration registers (R114) -/

/-- The registers that only the host and a reset write: the configuration, IRQ_EN and LAST_CMD. -/
def configRegs (s : State) : List Word :=
  [s.csr.ctrl, s.csr.irqEn, s.csr.lastCmd, s.csr.nbits, s.csr.nsps, s.csr.amp, s.csr.carFcw, s.csr.devFcw,
    s.csr.sigma]

theorem configRegs_raiseError (s : State) (e : CmdError) : configRegs (s.raiseError e) = configRegs s := by
  rw [raiseError_eq]; rfl

theorem configRegs_complete (s : State) : configRegs s.complete = configRegs s := rfl

theorem configRegs_genbitsBody (s : State) : configRegs (genbitsBody s) = configRegs s := rfl

@[simp] theorem configRegs_mapBody (c : Scheme) (s : State) : configRegs (mapBody c s) = configRegs s := rfl

@[simp] theorem configRegs_synthBody (s : State) : configRegs (synthBody s) = configRegs s := rfl

@[simp] theorem configRegs_noiseBody (s : State) : configRegs (noiseBody s) = configRegs s := by
  unfold noiseBody
  split <;> rfl

@[simp] theorem configRegs_demodBody (s : State) : configRegs (demodBody s) = configRegs s := by
  unfold demodBody
  split <;> rfl

theorem configRegs_runBody (c : Scheme) (s : State) : configRegs (runBody c s) = configRegs s := by
  simp [runBody]

/-- By the ways a command can end: no body writes a configuration register. -/
theorem configRegs_exec {i : Instr} {s t : State} (hsreset : i ≠ .sreset) (hwrite : ∀ a d, i ≠ .busWr a d)
    (hexec : exec i s = .next t) : configRegs t = configRegs s := by
  by_cases hread : ∃ a, i = .busRd a
  · obtain ⟨a, rfl⟩ := hread
    rw [exec_busRd] at hexec
    injection hexec with ht
    exact ht ▸ rfl
  · rcases exec_command_cases (fun a ha => hread ⟨a, ha⟩) hwrite hexec with ⟨e, rfl⟩ | rfl | ⟨_, rfl⟩ | ⟨c, _, rfl⟩ |
      ⟨_, rfl⟩ | ⟨_, rfl⟩ | ⟨_, rfl⟩ | ⟨c, _, rfl⟩ | ⟨hi, _⟩
    · exact configRegs_raiseError s e
    · exact configRegs_complete s
    · exact configRegs_genbitsBody s
    · exact configRegs_mapBody c s
    · exact configRegs_synthBody s
    · exact configRegs_noiseBody s
    · exact configRegs_demodBody s
    · exact configRegs_runBody c s
    · exact absurd hi hsreset

/-! ## The obligations -/

/-- Settles O1, by the inversion of the decoder on command words and the fields of the tuple on transactions. -/
theorem decodeEncodeAgree : Obligations.DecodeEncodeAgree := by
  refine ⟨decode_encode, fun w i => encode_of_decodeCommand, ?write, ?read⟩
  case write =>
    intro t ht
    rw [decodeTransaction_of_write ht]
    exact congrArg Packet.transaction (packed_fields ht)
  case read =>
    intro t u ht hu haddr
    rw [decodeTransaction_of_read ht, decodeTransaction_of_read hu, haddr]

/-- Settles O2: one lemma per row of the procedure. -/
theorem decodingProcedureIsTotal : Obligations.DecodingProcedureIsTotal := by
  intro w
  refine ⟨decodeCommand_of_rsv, fun _ hsch hmap hrun => decodeCommand_of_strayScheme hmap hrun hsch,
    decodeCommand_of_reservedOp, ?plain, ?map, ?run, ?reject⟩
  case plain =>
    intro hhigh
    have plain : ∀ {op i}, (op, i) ∈ plainOps → w.toNat % 16 = op → decodeCommand w = .instr i :=
      fun hmem hop => decodeCommand_plain hhigh (hop ▸ hmem)
    exact ⟨plain (by decide), plain (by decide), plain (by decide), plain (by decide), plain (by decide),
      plain (by decide)⟩
  case map =>
    intro hrsv hop
    have map := decodeCommand_map hrsv hop
    exact ⟨map .ask, map .fsk, map .bpsk, map .qpsk, map .qam16, decodeCommand_mapBadScheme hrsv hop⟩
  case run =>
    intro hrsv hop
    have run := decodeCommand_run hrsv hop
    exact ⟨run .ask, run .fsk, run .bpsk, run .qpsk, run .qam16, decodeCommand_runBadScheme hrsv hop⟩
  case reject => exact fun s hbusy hpend => ⟨engineStep_of_illegal hbusy hpend, engineStep_of_badScheme hbusy hpend⟩

/-- Settles O3: a well-formed word lies in a row of R120 that answers an instruction, and a word that decodes to one is
its encoding, which is well-formed. -/
theorem wellFormedWordsAreTheDecodedOnes : Obligations.WellFormedWordsAreTheDecodedOnes := by
  intro w
  constructor
  · intro hwf
    obtain ⟨hrsv, hop, hallowed, hknown⟩ := wf_command_iff.mp hwf
    rcases op_cases w with ⟨i, hplain⟩ | hmap | hrun | hreserved
    · exact ⟨i, decodeCommand_plain (by have := plainOp_ne hplain; omega) hplain⟩
    · obtain ⟨c, hsch⟩ := (scheme_cases (w.toNat / 16)).resolve_right (by omega)
      exact ⟨mapOf c, decodeCommand_map hrsv hmap c hsch⟩
    · obtain ⟨c, hsch⟩ := (scheme_cases (w.toNat / 16)).resolve_right (by omega)
      exact ⟨runOf c, decodeCommand_run hrsv hrun c hsch⟩
    · omega
  · rintro ⟨i, hdecode⟩
    rw [← encode_of_decodeCommand hdecode]
    exact wf_encode i

/-- Settles O6: the rejecting rows of R120, then error entry from the state with the input taken off. -/
theorem rejectedWordsEndInTheirError : Obligations.RejectedWordsEndInTheirError := by
  intro s w hturn hbusy hpend
  have hbusy' := (beginStep_busy s).trans hbusy
  have hpend' := (beginStep_pend s).trans hpend
  refine ⟨fun hillegal => ?illegal, fun hrsv hop hsch => ?scheme⟩
  case illegal =>
    have hdecode : decodeCommand w = .illegal := by
      rcases hillegal with hrsv | ⟨hlow, hhigh⟩ | ⟨hmap, hrun, hsch⟩
      · exact decodeCommand_of_rsv hrsv
      · exact decodeCommand_of_reservedOp hlow hhigh
      · exact decodeCommand_of_strayScheme hmap hrun hsch
    exact ⟨_, (step_of_engineNext hturn).trans (engineStep_of_illegal hbusy' hpend' hdecode),
      raiseError_errorTaken _ .illegalCmd⟩
  case scheme =>
    have hdecode : decodeCommand w = .mapBadScheme ∨ decodeCommand w = .runBadScheme :=
      hop.imp (decodeCommand_mapBadScheme hrsv · hsch) (decodeCommand_runBadScheme hrsv · hsch)
    exact ⟨_, (step_of_engineNext hturn).trans (engineStep_of_badScheme hbusy' hpend' hdecode),
      raiseError_errorTaken _ .scheme⟩

/-- Settles O54: every end of a command but SRESET's leaves the nine registers as they were. -/
theorem onlySresetChangesTheConfiguration : Obligations.OnlySresetChangesTheConfiguration := by
  intro i s t hsreset hwrite hexec
  simpa only [configRegs, List.cons.injEq, and_true] using configRegs_exec hsreset hwrite hexec

/-- Settles O4: each word is the encoding of its instruction, but for the read, whose `pwdata` is ignored. -/
theorem opcodeWordsDecode : Obligations.OpcodeWordsDecode :=
  ⟨decode_encode .genbits, decode_encode .mapQpsk, decode_encode .synth, decode_encode .noise, decode_encode .demod,
    decode_encode .runQam16, decode_encode .sreset, congrArg Decoded.instr (decodeTransaction_of_read (by decide)),
    decode_encode (.busWr 0x00014#20 0x0000002A#32)⟩

end Sys2Proof.Machine

/-! Proofs about spec/40_kernels.md: saturation (R140), the cosine table against the real cosine (R142 to R144), the
phase accumulator (R147), the generators (R151), and the Gaussian kernel (R153, R154). The integer methods of the table
and of the radius are each bounded against the real function they stand for, one lemma per definition. -/

namespace Sys2Proof.Machine

/-! ## Saturation (R140) -/

theorem sat32_of_gt {v : Int} (h : s32Max < v) : sat32 v = s32Max ∧ saturates v = true := by
  simp [sat32, saturates, h]

theorem sat32_of_lt {v : Int} (h : v < s32Min) : sat32 v = s32Min ∧ saturates v = true := by
  have hmax : ¬ s32Max < v := by unfold s32Max; unfold s32Min at h; omega
  simp [sat32, saturates, h, hmax]

theorem saturates_of_mem {v : Int} (hlo : s32Min ≤ v) (hhi : v ≤ s32Max) : saturates v = false := by
  simp [saturates, hlo, hhi]

/-- Settles O40: one lemma per range of R140; inside the range nothing saturates, so the value is kept. -/
theorem saturationClamps : Obligations.SaturationClamps := fun v =>
  ⟨sat32_of_gt, sat32_of_lt, fun hlo hhi =>
    have hin := saturates_of_mem hlo hhi
    ⟨sat32_of_not_saturates v hin, hin⟩⟩

/-! ## The quarters of the cosine table (R144) -/

theorem cosQuarter_length : cosQuarter.length = 257 := by decide +kernel

/-- The quarter's last entry, the cosine of a right angle, is 0, so it is its own negation. -/
theorem cosQuarter_last : cosQuarter.getD 256 0 = 0 := by decide +kernel

theorem cosLut_first {k : Nat} (h : k ≤ 256) : cosLut k = cosQuarter.getD k 0 := if_pos h

theorem cosLut_second {k : Nat} (hlo : 256 ≤ k) (hhi : k ≤ 512) : cosLut k = -cosQuarter.getD (512 - k) 0 := by
  obtain rfl | hlt := hlo.eq_or_lt
  · rw [cosLut_first le_rfl, cosQuarter_last, neg_zero]
  · rw [cosLut, if_neg (by omega), if_pos hhi]

theorem cosLut_third {k : Nat} (hlo : 512 ≤ k) (hhi : k ≤ 768) : cosLut k = -cosQuarter.getD (k - 512) 0 := by
  obtain rfl | hlt := hlo.eq_or_lt
  · exact cosLut_second (by omega) le_rfl
  · rw [cosLut, if_neg (by omega), if_neg (by omega), if_pos hhi]

theorem cosLut_fourth {k : Nat} (hlo : 768 ≤ k) : cosLut k = cosQuarter.getD (1024 - k) 0 := by
  obtain rfl | hlt := hlo.eq_or_lt
  · rw [cosLut_third (by omega) le_rfl, cosQuarter_last, neg_zero]
  · rw [cosLut, if_neg (by omega), if_neg (by omega), if_neg (by omega)]

/-- The quarters that an index below 1024 can lie in; each turn of half a period takes a quarter to the next but one. -/
theorem quarter_cases {k : Nat} (h : k < 1024) :
    k ≤ 256 ∨ (256 ≤ k ∧ k < 512) ∨ (512 ≤ k ∧ k ≤ 768) ∨ (768 ≤ k ∧ k < 1024) := by omega

theorem cosLut_halfTurn {k : Nat} (h : k < 1024) : cosLut ((k + 512) % 1024) = -cosLut k := by
  rcases quarter_cases h with hk | ⟨hlo, hhi⟩ | ⟨hlo, hhi⟩ | ⟨hlo, hhi⟩
  · rw [Nat.mod_eq_of_lt (by omega), cosLut_third (by omega) (by omega), cosLut_first hk, Nat.add_sub_cancel]
  · rw [Nat.mod_eq_of_lt (by omega), cosLut_fourth (by omega), cosLut_second hlo hhi.le, neg_neg,
      show 1024 - (k + 512) = 512 - k by omega]
  · rw [show (k + 512) % 1024 = k - 512 by omega, cosLut_first (by omega), cosLut_third hlo hhi, neg_neg]
  · rw [show (k + 512) % 1024 = k - 512 by omega, cosLut_second (by omega) (by omega), cosLut_fourth hlo,
      show 512 - (k - 512) = 1024 - k by omega]

theorem cosLut_reflect {k : Nat} (h : k < 1024) : cosLut ((1024 - k) % 1024) = cosLut k := by
  obtain rfl | hpos := Nat.eq_zero_or_pos k
  · rfl
  rw [Nat.mod_eq_of_lt (by omega)]
  rcases quarter_cases h with hk | ⟨hlo, hhi⟩ | ⟨hlo, hhi⟩ | ⟨hlo, hhi⟩
  · rw [cosLut_fourth (by omega), cosLut_first hk, Nat.sub_sub_self (by omega)]
  · rw [cosLut_third (by omega) (by omega), cosLut_second hlo hhi.le, show 1024 - k - 512 = 512 - k by omega]
  · rw [cosLut_second (by omega) (by omega), cosLut_third hlo hhi,
      show 512 - (1024 - k) = k - 512 by omega]
  · rw [cosLut_first (by omega), cosLut_fourth hlo]

/-- Settles O42: a half turn and a reflection each take a quarter of the table to a quarter. -/
theorem tableSymmetries : Obligations.TableSymmetries := fun _ h => ⟨cosLut_halfTurn h, cosLut_reflect h⟩

/-! ## The phase accumulator (R147) -/

theorem phase_zero (f : Word) : phase 0 f = 0#32 := by simp [phase]

/-- `u32` is a ring homomorphism, so one more sample adds F. -/
theorem phase_succ (m : Nat) (f : Word) : phase (m + 1) f = phase m f + f := by
  rw [phase, phase, Nat.add_mul, Nat.one_mul, BitVec.ofNat_add, BitVec.ofNat_toNat, BitVec.setWidth_eq]

/-- Settles O43, by induction on the number of samples. -/
theorem phaseAccumulatorHoldsThePhase : Obligations.PhaseAccumulatorHoldsThePhase := by
  intro f pa hzero hsucc m
  have hphase : pa m = phase m f := by
    induction m with
    | zero => rw [hzero, phase_zero]
    | succ m ih => rw [hsucc, ih, phase_succ]
  exact ⟨hphase, by rw [hphase, phase, BitVec.toNat_ofNat]⟩

/-! ## The generators are linear (R151) -/

theorem xor_shiftLeft_stage (x y : Word) (k : Nat) :
    (x ^^^ y) ^^^ ((x ^^^ y) <<< k) = (x ^^^ (x <<< k)) ^^^ (y ^^^ (y <<< k)) := by
  rw [BitVec.shiftLeft_xor_distrib]; ac_rfl

theorem xor_shiftRight_stage (x y : Word) (k : Nat) :
    (x ^^^ y) ^^^ ((x ^^^ y) >>> k) = (x ^^^ (x >>> k)) ^^^ (y ^^^ (y >>> k)) := by
  rw [BitVec.ushiftRight_xor_distrib]; ac_rfl

/-- Each of the three stages of the generator commutes with the exclusive or of two states. -/
theorem xs32_xor (x y : Word) : xs32 (x ^^^ y) = xs32 x ^^^ xs32 y := by
  simp only [xs32, xor_shiftLeft_stage, xor_shiftRight_stage]

/-- The step is linear and only 0 steps to 0. -/
theorem xs32_injective : Function.Injective xs32 := by
  intro x y h
  by_contra hne
  have hzero : xs32 (x ^^^ y) = 0#32 := by rw [xs32_xor, h, BitVec.xor_self]
  exact xs32_ne_zero (fun hxor => hne (BitVec.xor_eq_zero_iff.mp hxor)) hzero

/-- Settles O44: the step is linear with kernel 0, and the claim on `n` steps follows by induction on `n`. -/
theorem generatorNeverReachesZero : Obligations.GeneratorNeverReachesZero :=
  ⟨rfl, xs32_injective, fun n _ => rngAfter_ne_zero n⟩

/-! ## The cosine table against the real cosine (R142, R143)

Turning a vector by one table step at a time, in integer units of 2^-48 (2^48 is 281474976710656), keeps it within a
known error of the real cosine and sine. `rotationTracks` runs that rotation along the quarter and checks that each
entry rounds what it finds. -/

/-- The cosine and the sine of one table step, π/512, in units of 2^-48. -/
def stepCos : Int := 281469678023765
def stepSin : Int := 1727097988720

/-- The vector (x, y) turned by one table step. -/
def rotateCos (x y : Int) : Int := (x * stepCos - y * stepSin) / 281474976710656
def rotateSin (x y : Int) : Int := (x * stepSin + y * stepCos) / 281474976710656

/-- The error of the turned vector, from the error `e` of the vector. -/
def rotateError (e : Int) : Int := e + e / 128 + 98

/-- Whether each entry, in units of 2^-16, is less than half a unit from the vector's first coordinate with its error
`e` (half a unit of 2^-16 is 2^31 units of 2^-48), while the vector turns by one table step from each entry to the
next. -/
def rotationTracks : List Int → Int → Int → Int → Bool
  | [], _, _, _ => true
  | t :: ts, x, y, e =>
    decide (x + e - 2147483648 < t * 4294967296) && decide (t * 4294967296 < x - e + 2147483648) &&
      rotationTracks ts (rotateCos x y) (rotateSin x y) (rotateError e)

/-- (x, y) is the point of the unit circle at angle `α`, in units of 2^-48, up to `e` in each coordinate. -/
def OnCircle (x y e : Int) (α : ℝ) : Prop :=
  |(x : ℝ) - 281474976710656 * Real.cos α| ≤ e ∧ |(y : ℝ) - 281474976710656 * Real.sin α| ≤ e

theorem onCircle_zero : OnCircle 281474976710656 0 0 0 := by simp [OnCircle]

/-- The sine of a small positive angle between two bounds, from Taylor's polynomial of degree 3. -/
theorem sin_bounds {x lo hi : ℝ} (hlo : 0 ≤ lo) (hx : lo ≤ x) (hx' : x ≤ hi) (hhi : hi ≤ 1) :
    lo - hi ^ 3 / 6 - hi ^ 5 / 100 ≤ Real.sin x ∧ Real.sin x ≤ hi - lo ^ 3 / 6 + hi ^ 5 / 100 := by
  have hx0 : 0 ≤ x := hlo.trans hx
  have hsin := Real.sin_bound (x := x) (by rw [abs_of_nonneg hx0]; exact hx'.trans hhi)
  rw [abs_of_nonneg hx0] at hsin
  obtain ⟨hbelow, habove⟩ := abs_le.mp hsin
  have hcubeLo : lo ^ 3 ≤ x ^ 3 := by gcongr
  have hcubeHi : x ^ 3 ≤ hi ^ 3 := by gcongr
  have hfifth : x ^ 5 ≤ hi ^ 5 := by gcongr
  constructor <;> linarith

/-- The rotation's constants are the cosine and the sine of one table step; the cosine comes from half the angle. -/
theorem onCircle_step : OnCircle stepCos stepSin 48 (Real.pi / 512) := by
  have hlo := Real.pi_gt_d20
  have hhi := Real.pi_lt_d20
  obtain ⟨hsinLo, hsinHi⟩ := sin_bounds (x := Real.pi / 512) (lo := 3.14159265358979323846 / 512)
    (hi := 3.14159265358979323847 / 512) (by norm_num) (by linarith) (by linarith) (by norm_num)
  obtain ⟨hhalfLo, hhalfHi⟩ := sin_bounds (x := Real.pi / 1024) (lo := 3.14159265358979323846 / 1024)
    (hi := 3.14159265358979323847 / 1024) (by norm_num) (by linarith) (by linarith) (by norm_num)
  norm_num at hsinLo hsinHi hhalfLo hhalfHi
  have hcos : Real.cos (Real.pi / 512) = 1 - 2 * Real.sin (Real.pi / 1024) ^ 2 := by
    rw [Real.sin_sq_eq_half_sub, show 2 * (Real.pi / 1024) = Real.pi / 512 by ring]
    ring
  have hsqLo := pow_le_pow_left₀ (by norm_num) hhalfLo 2
  have hsqHi := pow_le_pow_left₀ ((by norm_num : (0 : ℝ) ≤ _).trans hhalfLo) hhalfHi 2
  norm_num at hsqLo hsqHi
  refine ⟨abs_le.mpr ?_, abs_le.mpr ?_⟩
  · rw [hcos, stepCos]; push_cast; constructor <;> linarith
  · rw [stepSin]; push_cast; constructor <;> linarith

/-- The error of a product of two coordinates in units of 2^-48. -/
theorem abs_mul_sub_le {x c a b e d u : ℝ} (hx : |x - u * a| ≤ e) (hc : |c - u * b| ≤ d) (ha : |a| ≤ 1)
    (hc0 : 0 ≤ c) (hu : 0 ≤ u) : |x * c - u * u * (a * b)| ≤ e * c + u * d := by
  have hsplit : x * c - u * u * (a * b) = (x - u * a) * c + u * (a * (c - u * b)) := by ring
  have hleft : |(x - u * a) * c| ≤ e * c := by
    rw [abs_mul, abs_of_nonneg hc0]; gcongr
  have hright : |u * (a * (c - u * b))| ≤ u * d := by
    rw [abs_mul, abs_of_nonneg hu, abs_mul]
    have := mul_le_mul ha hc (abs_nonneg _) zero_le_one
    rw [one_mul] at this
    gcongr
  calc _ ≤ |(x - u * a) * c| + |u * (a * (c - u * b))| := hsplit ▸ abs_add_le _ _
    _ ≤ _ := add_le_add hleft hright

/-- Dividing a rotated coordinate, a sum of two products, by 2^48 and rounding down: the error is that of
`rotateError`, because the rotation's constants add up to less than 2^48 × (1 + 1/128). -/
theorem abs_ediv_sub_le {n e : Int} {v : ℝ} (he : 0 ≤ e)
    (h : |(n : ℝ) - 281474976710656 * 281474976710656 * v| ≤
      e * stepCos + e * stepSin + 281474976710656 * 96) :
    |((n / 281474976710656 : Int) : ℝ) - 281474976710656 * v| ≤ rotateError e := by
  have hdiv : (281474976710656 : ℝ) * (n / 281474976710656 : Int) + (n % 281474976710656 : Int) = n := by
    exact_mod_cast Int.mul_ediv_add_emod n 281474976710656
  have hmod : (0 : ℝ) ≤ (n % 281474976710656 : Int) := by exact_mod_cast Int.emod_nonneg _ (by norm_num)
  have hmod' : ((n % 281474976710656 : Int) : ℝ) < 281474976710656 := by
    exact_mod_cast Int.emod_lt_of_pos _ (by norm_num)
  have he' : (e : ℝ) ≤ 128 * (e / 128 : Int) + 127 := by exact_mod_cast (by omega : e ≤ 128 * (e / 128) + 127)
  have he0 : (0 : ℝ) ≤ e := by exact_mod_cast he
  obtain ⟨hlo, hhi⟩ := abs_le.mp h
  simp only [stepCos, stepSin, Int.cast_ofNat] at hlo hhi
  rw [rotateError, abs_le]
  push_cast
  constructor <;> linarith

theorem OnCircle.rotate {x y e : Int} {α : ℝ} (h : OnCircle x y e α) (he : 0 ≤ e) :
    OnCircle (rotateCos x y) (rotateSin x y) (rotateError e) (α + Real.pi / 512) := by
  obtain ⟨hx, hy⟩ := h
  obtain ⟨hcos, hsin⟩ := onCircle_step
  have hcos0 : (0 : ℝ) ≤ stepCos := by norm_num [stepCos]
  have hsin0 : (0 : ℝ) ≤ stepSin := by norm_num [stepSin]
  have hu : (0 : ℝ) ≤ 281474976710656 := by norm_num
  have hα := Real.abs_cos_le_one α
  have hα' := Real.abs_sin_le_one α
  constructor
  · apply abs_ediv_sub_le he
    obtain ⟨hlo, hhi⟩ := abs_le.mp (abs_mul_sub_le hx hcos hα hcos0 hu)
    obtain ⟨hlo', hhi'⟩ := abs_le.mp (abs_mul_sub_le hy hsin hα' hsin0 hu)
    rw [Real.cos_add, abs_le]
    push_cast at *
    constructor <;> linarith
  · apply abs_ediv_sub_le he
    obtain ⟨hlo, hhi⟩ := abs_le.mp (abs_mul_sub_le hx hsin hα hsin0 hu)
    obtain ⟨hlo', hhi'⟩ := abs_le.mp (abs_mul_sub_le hy hcos hα' hcos0 hu)
    rw [Real.sin_add, abs_le]
    push_cast at *
    constructor <;> linarith

/-- An entry that the check accepts is the rounded cosine of the vector's angle. -/
theorem OnCircle.rounds {x y e t : Int} {α : ℝ} (h : OnCircle x y e α)
    (hlo : x + e - 2147483648 < t * 4294967296) (hhi : t * 4294967296 < x - e + 2147483648) :
    |(t : ℝ) - 65536 * Real.cos α| < 1 / 2 := by
  obtain ⟨hbelow, habove⟩ := abs_le.mp h.1
  have hlo' : (x : ℝ) + e - 2147483648 < t * 4294967296 := by exact_mod_cast hlo
  have hhi' : (t : ℝ) * 4294967296 < x - e + 2147483648 := by exact_mod_cast hhi
  rw [abs_lt]
  constructor <;> linarith

/-- A list that the check accepts holds rounded cosines, one table step apart. -/
theorem rounds_of_rotationTracks {ts : List Int} {x y e : Int} {α : ℝ} (he : 0 ≤ e) (h : OnCircle x y e α)
    (htracks : rotationTracks ts x y e = true) {i : Nat} (hi : i < ts.length) :
    |(ts.getD i 0 : ℝ) - 65536 * Real.cos (α + i * (Real.pi / 512))| < 1 / 2 := by
  induction ts generalizing x y e α i with
  | nil => exact absurd hi (Nat.not_lt_zero i)
  | cons t ts ih =>
    simp only [rotationTracks, Bool.and_eq_true, decide_eq_true_eq] at htracks
    obtain ⟨⟨hlo, hhi⟩, hrest⟩ := htracks
    cases i with
    | zero => simpa using h.rounds hlo hhi
    | succ i =>
      have he' : 0 ≤ rotateError e := by unfold rotateError; omega
      have hnext := ih he' (h.rotate he) hrest (Nat.lt_of_succ_lt_succ hi)
      rwa [add_assoc, ← one_add_mul, add_comm (1 : ℝ), ← Nat.cast_succ] at hnext

/-- The quarter starts at angle 0 and each of its entries passes the check. -/
theorem cosQuarter_tracks : rotationTracks cosQuarter 281474976710656 0 0 = true := by decide +kernel

theorem cosQuarter_rounds {k : Nat} (h : k ≤ 256) :
    |(cosQuarter.getD k 0 : ℝ) - 65536 * Real.cos (2 * Real.pi * k / 1024)| < 1 / 2 := by
  have hk : k < cosQuarter.length := by rw [cosQuarter_length]; omega
  have hround := rounds_of_rotationTracks le_rfl onCircle_zero cosQuarter_tracks hk
  rwa [show (0 : ℝ) + k * (Real.pi / 512) = 2 * Real.pi * k / 1024 by ring] at hround

/-- An entry of the quarter, negated, rounds the cosine of an angle whose cosine is the negated one. -/
theorem neg_cosQuarter_rounds {j : Nat} (h : j ≤ 256) {α : ℝ}
    (hα : Real.cos α = -Real.cos (2 * Real.pi * j / 1024)) :
    |((-cosQuarter.getD j 0 : Int) : ℝ) - 65536 * Real.cos α| < 1 / 2 := by
  rw [hα, Int.cast_neg, ← abs_neg]
  convert cosQuarter_rounds h using 2
  ring

theorem cosLut_rounds {k : Nat} (h : k < 1024) :
    |(cosLut k : ℝ) - 65536 * Real.cos (2 * Real.pi * k / 1024)| < 1 / 2 := by
  rcases quarter_cases h with hk | ⟨hlo, hhi⟩ | ⟨hlo, hhi⟩ | ⟨hlo, hhi⟩
  · rw [cosLut_first hk]
    exact cosQuarter_rounds hk
  · have hangle : 2 * Real.pi * (512 - k : Nat) / 1024 = Real.pi - 2 * Real.pi * k / 1024 := by
      rw [Nat.cast_sub hhi.le]; push_cast; ring
    rw [cosLut_second hlo hhi.le]
    exact neg_cosQuarter_rounds (by omega) (by rw [hangle, Real.cos_pi_sub, neg_neg])
  · have hangle : 2 * Real.pi * (k - 512 : Nat) / 1024 = 2 * Real.pi * k / 1024 - Real.pi := by
      rw [Nat.cast_sub hlo]; push_cast; ring
    rw [cosLut_third hlo hhi]
    exact neg_cosQuarter_rounds (by omega) (by rw [hangle, Real.cos_sub_pi, neg_neg])
  · have hangle : 2 * Real.pi * (1024 - k : Nat) / 1024 = 2 * Real.pi - 2 * Real.pi * k / 1024 := by
      rw [Nat.cast_sub hhi.le]; push_cast; ring
    rw [cosLut_fourth hlo, ← Real.cos_two_pi_sub, ← hangle]
    exact cosQuarter_rounds (by omega)

/-- A quarter period back, the cosine is the sine. -/
theorem cos_quarterBack (k : Nat) :
    Real.cos (2 * Real.pi * ((k + 768) % 1024 : Nat) / 1024) = Real.sin (2 * Real.pi * k / 1024) := by
  have hmod : (1024 : ℝ) * ((k + 768) / 1024 : Nat) + ((k + 768) % 1024 : Nat) = k + 768 := by
    exact_mod_cast Nat.div_add_mod (k + 768) 1024
  have hangle : 2 * Real.pi * ((k + 768) % 1024 : Nat) / 1024 =
      2 * Real.pi * k / 1024 - Real.pi / 2 + 2 * Real.pi - ((k + 768) / 1024 : Nat) * (2 * Real.pi) := by
    rw [← sub_eq_iff_eq_add'.mpr hmod.symm]; ring
  rw [hangle, Real.cos_sub_nat_mul_two_pi, Real.cos_add_two_pi, Real.cos_sub_pi_div_two]

/-- Settles O41: the rotation's check on the first quarter, the other quarters by R144, and the sine a quarter period
back. -/
theorem tableIsTheRoundedCosine : Obligations.TableIsTheRoundedCosine := by
  intro k h
  have hsin := cosLut_rounds (Nat.mod_lt (k + 768) (by decide : 0 < 1024))
  rw [cos_quarterBack] at hsin
  exact ⟨rfl, cosLut_rounds h, hsin⟩

/-! ## The integer methods of the radius (R153, assumption log 5)

Each of the model's functions is bounded against the real one it stands for, in units of 2^-128: the series of atanh,
the logarithm of a ratio, the logarithm of 2^32 / w. Every division rounds down, so each is a lower bound. -/

theorem natDiv_bounds (m n : Nat) :
    ((m / n : Nat) : ℝ) ≤ m / n ∧ (m : ℝ) / n ≤ (m / n : Nat) + 1 := by
  refine ⟨Nat.cast_div_le, ?_⟩
  rw [← Nat.floor_div_eq_div (K := ℝ)]
  exact (Nat.lt_floor_add_one _).le

/-- The sum of `x^i / (d + 2 i)` over `n` terms, which `atanhTail` computes with x = a/b. -/
noncomputable def atanhSum (x : ℝ) (n d : Nat) : ℝ := ∑ i ∈ Finset.range n, x ^ i / (d + 2 * i)

theorem atanhSum_succ (x : ℝ) (n d : Nat) :
    atanhSum x (n + 1) d = 1 / d + x * atanhSum x n (d + 2) := by
  rw [atanhSum, Finset.sum_range_succ', atanhSum, Finset.mul_sum, add_comm]
  congr 1
  · simp
  · refine Finset.sum_congr rfl fun i _ => ?_
    push_cast
    rw [pow_succ', mul_div_assoc, mul_add, mul_one, add_right_comm, ← add_assoc]

theorem atanhSum_nonneg {x : ℝ} (hx : 0 ≤ x) (n d : Nat) : 0 ≤ atanhSum x n d :=
  Finset.sum_nonneg fun _ _ => by positivity

/-- Each of the terms is at most 1. -/
theorem atanhSum_le {x : ℝ} (hx : 0 ≤ x) (hx' : x ≤ 1) (n : Nat) {d : Nat} (hd : 1 ≤ d) :
    atanhSum x n d ≤ n := by
  have hterm : ∀ i ∈ Finset.range n, x ^ i / (d + 2 * i) ≤ 1 := by
    intro i _
    have hd' : (1 : ℝ) ≤ d := by exact_mod_cast hd
    rw [div_le_one (by positivity)]
    calc x ^ i ≤ 1 := pow_le_one₀ hx hx'
      _ ≤ d + 2 * i := by linarith [Nat.cast_nonneg (α := ℝ) i]
  simpa [atanhSum] using Finset.sum_le_sum hterm

theorem mul_atanhSum (z : ℝ) (n : Nat) :
    z * atanhSum (z ^ 2) n 1 = ∑ i ∈ Finset.range n, z ^ (2 * i + 1) / (2 * i + 1) := by
  rw [atanhSum, Finset.mul_sum]
  refine Finset.sum_congr rfl fun i _ => ?_
  rw [← pow_mul, Nat.cast_one, add_comm (1 : ℝ), ← mul_div_assoc, ← pow_succ']

/-- Rounding a term down costs at most 1, and rounding the next `t` down costs each later term at most 1. -/
theorem atanhTail_bounds {a b : Nat} (hb : 0 < b) (hab : a ≤ b) (n : Nat) {d : Nat} (hd : 1 ≤ d) (t : Nat) :
    (atanhTail a b n d t : ℝ) ≤ t * atanhSum (a / b) n d ∧
    t * atanhSum (a / b) n d ≤ atanhTail a b n d t + n ^ 2 := by
  induction n generalizing d t with
  | zero => simp [atanhTail, atanhSum]
  | succ n ih =>
    have hx : (0 : ℝ) ≤ a / b := by positivity
    have hx' : (a : ℝ) / b ≤ 1 := div_le_one_of_le₀ (by exact_mod_cast hab) (Nat.cast_nonneg b)
    obtain ⟨hlow, hhigh⟩ := ih (d := d + 2) (by omega) (t * a / b)
    obtain ⟨hterm, hterm'⟩ := natDiv_bounds t d
    obtain ⟨hnext, hnext'⟩ := natDiv_bounds (t * a) b
    have hsum0 := atanhSum_nonneg hx n (d + 2)
    have hsumn := atanhSum_le hx hx' n (d := d + 2) (by omega)
    have hsplit : (t : ℝ) * atanhSum (a / b) (n + 1) d =
        t / d + (t * a : Nat) / b * atanhSum (a / b) n (d + 2) := by
      rw [atanhSum_succ]; push_cast; ring
    have hbelow := mul_le_mul_of_nonneg_right hnext hsum0
    have habove := mul_le_mul_of_nonneg_right hnext' hsum0
    rw [hsplit, atanhTail]
    push_cast at *
    constructor <;> nlinarith

/-- By Mathlib's bounds on the series of `atanh`: 48 terms leave less than one unit of 2^-128. -/
theorem log_bounds_of_atanhSum {z : ℝ} (hz : 0 ≤ z) (hz' : z ≤ 1 / 3) :
    2 ^ 129 * z * atanhSum (z ^ 2) 48 1 ≤ 2 ^ 128 * Real.log ((1 + z) / (1 - z)) ∧
    2 ^ 128 * Real.log ((1 + z) / (1 - z)) ≤ 2 ^ 129 * z * atanhSum (z ^ 2) 48 1 + 1 := by
  have hlog := Real.sum_range_le_log_div hz (by linarith) 48
  have hlog' := Real.log_div_le_sum_range_add hz (by linarith) 48
  have hrest : z ^ (2 * 48 + 1) / (1 - z ^ 2) ≤ (1 / 3) ^ (2 * 48 + 1) / (1 - (1 / 3) ^ 2) := by
    gcongr
  have hsmall : (2 : ℝ) ^ 129 * ((1 / 3) ^ (2 * 48 + 1) / (1 - (1 / 3) ^ 2)) ≤ 1 := by norm_num
  rw [← mul_atanhSum] at hlog hlog'
  constructor <;> linarith

theorem lnRatio_bounds {a b : Nat} (hb : 0 < b) (hab : 3 * a ≤ b) :
    (lnRatio a b : ℝ) ≤ 2 ^ 128 * Real.log ((b + a) / (b - a)) ∧
    2 ^ 128 * Real.log ((b + a) / (b - a)) ≤ lnRatio a b + 2400 := by
  have hb' : (0 : ℝ) < b := by exact_mod_cast hb
  have hz3 : (a : ℝ) / b ≤ 1 / 3 := by
    have : (3 : ℝ) * a ≤ b := by exact_mod_cast hab
    rw [div_le_iff₀ hb']
    linarith
  have hratio : ((b : ℝ) + a) / (b - a) = (1 + a / b) / (1 - a / b) := by
    rw [one_add_div hb'.ne', one_sub_div hb'.ne', div_div_div_cancel_right₀ hb'.ne']
  have hsq : ((a * a : Nat) : ℝ) / (b * b : Nat) = (a / b) ^ 2 := by push_cast; ring
  obtain ⟨hlog, hlog'⟩ := log_bounds_of_atanhSum (z := a / b) (by positivity) hz3
  obtain ⟨hfirst, hfirst'⟩ := natDiv_bounds (2 * a * 340282366920938463463374607431768211456) b
  obtain ⟨htail, htail'⟩ := atanhTail_bounds (a := a * a) (b := b * b) (Nat.mul_pos hb hb)
    (Nat.mul_self_le_mul_self (by omega)) 48 le_rfl (2 * a * 340282366920938463463374607431768211456 / b)
  have hunits : ((2 * a * 340282366920938463463374607431768211456 : Nat) : ℝ) / b = 2 ^ 129 * (a / b) := by
    push_cast; ring
  have hsum0 := atanhSum_nonneg (sq_nonneg ((a : ℝ) / b)) 48 1
  have hsum48 := atanhSum_le (sq_nonneg ((a : ℝ) / b)) (by nlinarith) 48 (d := 1) le_rfl
  rw [hsq] at htail htail'
  rw [hunits] at hfirst hfirst'
  have hbelow := mul_le_mul_of_nonneg_right hfirst hsum0
  have habove := mul_le_mul_of_nonneg_right hfirst' hsum0
  rw [hratio, lnRatio]
  generalize atanhTail (a * a) (b * b) 48 1 _ = tail at htail htail' ⊢
  generalize 2 * a * 340282366920938463463374607431768211456 / b = first at *
  norm_num at hsum48 htail'
  constructor <;> linarith

/-- The two logarithms that `lnInv` adds. -/
theorem log_inv_eq {w : Nat} (hw : w ≠ 0) (hlt : w < 2 ^ 32) :
    Real.log (2 ^ 32 / w) = (31 - w.log2 : Nat) * Real.log 2 + Real.log (2 ^ (w.log2 + 1) / w) := by
  have hlog2 : w.log2 < 32 := (Nat.log2_lt hw).mpr hlt
  have hw' : (w : ℝ) ≠ 0 := by exact_mod_cast hw
  rw [← Real.log_pow, ← Real.log_mul (by positivity) (by positivity), ← mul_div_assoc, ← pow_add]
  rw [show 31 - w.log2 + (w.log2 + 1) = 32 by omega]

theorem lnInv_bounds {w : Nat} (hw : w ≠ 0) (hlt : w < 2 ^ 32) :
    (lnInv w : ℝ) ≤ 2 ^ 128 * Real.log (2 ^ 32 / w) ∧
    2 ^ 128 * Real.log (2 ^ 32 / w) ≤ lnInv w + 76800 := by
  have hself : 2 ^ w.log2 ≤ w := Nat.log2_self_le hw
  have hnext : w < 2 ^ (w.log2 + 1) := Nat.lt_log2_self
  have htop : 2 <<< w.log2 = 2 ^ (w.log2 + 1) := by rw [Nat.shiftLeft_eq, pow_succ']
  have hpow := pow_succ' 2 w.log2
  obtain ⟨htwo, htwo'⟩ := lnRatio_bounds (a := 1) (b := 3) (by norm_num) le_rfl
  obtain ⟨hrest, hrest'⟩ := lnRatio_bounds (a := 2 ^ (w.log2 + 1) - w) (b := 2 ^ (w.log2 + 1) + w)
    (by omega) (by omega)
  have hratio : (((2 ^ (w.log2 + 1) + w : Nat) : ℝ) + (2 ^ (w.log2 + 1) - w : Nat)) /
      ((2 ^ (w.log2 + 1) + w : Nat) - (2 ^ (w.log2 + 1) - w : Nat)) = 2 ^ (w.log2 + 1) / w := by
    have hw' : (w : ℝ) ≠ 0 := by exact_mod_cast hw
    rw [Nat.cast_sub hnext.le]; push_cast; rw [div_eq_div_iff (by ring_nf; simp [hw']) hw']; ring
  rw [hratio] at hrest hrest'
  have hcount : ((31 - w.log2 : Nat) : ℝ) ≤ 31 := by exact_mod_cast Nat.sub_le 31 _
  have hcount0 := Nat.cast_nonneg (α := ℝ) (31 - w.log2)
  have hbelow := mul_le_mul_of_nonneg_left htwo hcount0
  have habove := mul_le_mul_of_nonneg_left htwo' hcount0
  rw [show (((3 : Nat) : ℝ) + (1 : Nat)) / ((3 : Nat) - (1 : Nat)) = 2 by norm_num] at hbelow habove
  rw [log_inv_eq hw hlt, lnInv, htop]
  push_cast at *
  constructor <;> linarith

/-- While bits `n - 1` and below are open, the root lies in the `2 ^ n` values from the bits found so far up. -/
theorem isqrtBits_spec {t n r : Nat} (hlo : r * r ≤ t) (hhi : t < (r + 2 ^ n) * (r + 2 ^ n)) :
    isqrtBits t n r * isqrtBits t n r ≤ t ∧ t < (isqrtBits t n r + 1) * (isqrtBits t n r + 1) := by
  induction n generalizing r with
  | zero => exact ⟨hlo, hhi⟩
  | succ n ih =>
    rw [isqrtBits, Nat.one_shiftLeft]
    split
    next hbit => exact ih hbit (by rwa [add_assoc, ← two_mul, ← pow_succ'])
    next hbit => exact ih hlo (Nat.lt_of_not_le hbit)

/-! ## The radius against the real Box-Muller radius (R153) -/

/-- The real radius of R153, before rounding. -/
noncomputable def boxMullerRadius (w : Nat) : ℝ := 65536 * Real.sqrt (-2 * Real.log (w / 4294967296))

theorem boxMullerRadius_nonneg (w : Nat) : 0 ≤ boxMullerRadius w := by unfold boxMullerRadius; positivity

theorem boxMullerRadius_sq {w : Nat} (hw : w ≠ 0) (hlt : w < 2 ^ 32) :
    (2 * boxMullerRadius w) ^ 2 = 2 ^ 35 * Real.log (2 ^ 32 / w) := by
  have hw' : (0 : ℝ) < w := by exact_mod_cast Nat.pos_of_ne_zero hw
  have hlt' : (w : ℝ) < 2 ^ 32 := by exact_mod_cast hlt
  have hpos : 0 ≤ Real.log (2 ^ 32 / w) := Real.log_nonneg ((one_le_div hw').mpr hlt'.le)
  have hlog : -2 * Real.log (w / 4294967296) = 2 * Real.log (2 ^ 32 / w) := by
    rw [← inv_div, Real.log_inv]; norm_num
  rw [boxMullerRadius, hlog, mul_pow, mul_pow, Real.sq_sqrt (by positivity)]
  ring

/-- The logarithm is largest at w = 1, where it is 32 × ln 2. -/
theorem log_inv_le {w : Nat} (hw : w ≠ 0) : Real.log (2 ^ 32 / w) ≤ 32 * 0.6931471808 := by
  have hw' : (1 : ℝ) ≤ w := by exact_mod_cast Nat.pos_of_ne_zero hw
  calc Real.log (2 ^ 32 / w) ≤ Real.log (2 ^ 32) :=
        Real.log_le_log (by positivity) (div_le_self (by positivity) hw')
    _ = 32 * Real.log 2 := by rw [Real.log_pow]; norm_num
    _ ≤ _ := by linarith [Real.log_two_lt_d9]

/-- RAD is half of an integer root, rounded up; the root is that of `lnInv` in units of 2^-35, rounded down. -/
theorem rad_eq_half_root {w : Word} (h : lnInv w.toNat < 2 ^ 135) :
    ∃ q : Nat, rad w = (q + 1) / 2 ∧ q * q * 2 ^ 93 ≤ lnInv w.toNat ∧
      lnInv w.toNat < (q + 1) * (q + 1) * 2 ^ 93 := by
  unfold rad
  generalize lnInv w.toNat = n at h ⊢
  have hroom : n / 9903520314283042199192993792 < (0 + 2 ^ 21) * (0 + 2 ^ 21) := by omega
  obtain ⟨hlo, hhi⟩ := isqrtBits_spec (Nat.zero_le _) hroom
  generalize isqrtBits _ 21 0 = q at hlo hhi ⊢
  exact ⟨q, rfl, (Nat.le_div_iff_mul_le (by norm_num)).mp hlo, (Nat.div_lt_iff_lt_mul (by norm_num)).mp hhi⟩

/-- The root that RAD halves is twice the real radius rounded down, but for the error of the series. -/
theorem rad_root {w : Word} (hw : w ≠ 0#32) :
    ∃ q : Nat, rad w = (q + 1) / 2 ∧ (q : ℝ) ^ 2 ≤ (2 * boxMullerRadius w.toNat) ^ 2 ∧
      (2 * boxMullerRadius w.toNat) ^ 2 ≤ ((q : ℝ) + 1) ^ 2 + 1 / 1000000 := by
  have hw0 : w.toNat ≠ 0 := fun h => hw (BitVec.eq_of_toNat_eq h)
  obtain ⟨hln, hln'⟩ := lnInv_bounds hw0 w.isLt
  have hmax := log_inv_le hw0
  have hsmall : (lnInv w.toNat : ℝ) < 2 ^ 135 := by linarith
  obtain ⟨q, hrad, hlo, hhi⟩ := rad_eq_half_root (w := w) (by exact_mod_cast hsmall)
  have hlo' : (q : ℝ) * q * 2 ^ 93 ≤ lnInv w.toNat := by exact_mod_cast hlo
  have hhi' : (lnInv w.toNat : ℝ) < (q + 1) * (q + 1) * 2 ^ 93 := by exact_mod_cast hhi
  refine ⟨q, hrad, ?_⟩
  rw [boxMullerRadius_sq hw0 w.isLt]
  constructor <;> linarith

/-- Settles O45: twice the real radius lies between the root of `rad_root` and its successor, and half of that root,
rounded up, lies between their halves. -/
theorem radiusIsNearTheBoxMullerRadius : Obligations.RadiusIsNearTheBoxMullerRadius := by
  intro w hw
  change |((rad w : Nat) : ℝ) - boxMullerRadius w.toNat| ≤ _
  have hpos := boxMullerRadius_nonneg w.toNat
  obtain ⟨q, hrad, hlo, hhi⟩ := rad_root hw
  have hq : (q : ℝ) ≤ 2 * boxMullerRadius w.toNat := le_of_sq_le_sq hlo (by positivity)
  have hq' : 2 * boxMullerRadius w.toNat ≤ (q + 1) + 1 / 1000000 :=
    le_of_sq_le_sq (by nlinarith [Nat.cast_nonneg (α := ℝ) q]) (by positivity)
  have hr : (q : ℝ) ≤ 2 * rad w := by exact_mod_cast (by omega : q ≤ 2 * rad w)
  have hr' : (2 : ℝ) * rad w ≤ q + 1 := by exact_mod_cast (by omega : 2 * rad w ≤ q + 1)
  rw [abs_le]
  constructor <;> linarith

/-! ## The bound on a noise value (R154, R223) -/

/-- The greatest radius is that of w = 1. -/
theorem rad_le {w : Word} (hw : w ≠ 0#32) : rad w ≤ 436498 := by
  have hw0 : w.toNat ≠ 0 := fun h => hw (BitVec.eq_of_toNat_eq h)
  obtain ⟨q, hrad, hlo, -⟩ := rad_root hw
  rw [boxMullerRadius_sq hw0 w.isLt] at hlo
  have hq : (q : ℝ) < 872997 := lt_of_pow_lt_pow_left₀ 2 (by norm_num) (by linarith [log_inv_le hw0])
  have hq' : q < 872997 := by exact_mod_cast hq
  omega

theorem cosQuarter_bounds (k : Nat) : 0 ≤ cosQuarter.getD k 0 ∧ cosQuarter.getD k 0 ≤ 65536 := by
  have hall : ∀ t ∈ cosQuarter, 0 ≤ t ∧ t ≤ 65536 := by decide +kernel
  rcases Nat.lt_or_ge k cosQuarter.length with hk | hk
  · rw [List.getD_eq_getElem _ _ hk]
    exact hall _ (List.getElem_mem hk)
  · rw [List.getD_eq_default _ _ hk]
    decide

theorem abs_cosLut_le (k : Nat) : |cosLut k| ≤ 65536 := by
  have h := cosQuarter_bounds
  rw [abs_le, cosLut]
  split_ifs
  · have := h k; omega
  · have := h (512 - k); omega
  · have := h (k - 512); omega
  · have := h (1024 - k); omega

/-- Settles O46: the product is at most sigma × 436498 × 65536 in magnitude, and its floor can pass the bound only by
one, below. -/
theorem noiseValueIsBounded : Obligations.NoiseValueIsBounded := by
  intro sigma wu wv hsigma hwu
  have hrad : (rad wu : Int) ≤ 436498 := by exact_mod_cast rad_le hwu
  have hprod : |sigma * rad wu * cosLut (lutIndex wv)| ≤ sigma * 436498 * 65536 := by
    rw [abs_mul, abs_mul, abs_of_nonneg hsigma, Nat.abs_cast]
    have := abs_cosLut_le (lutIndex wv)
    gcongr
  obtain ⟨hlo, hhi⟩ := abs_le.mp hprod
  unfold noiseval shr32
  generalize sigma * rad wu * cosLut (lutIndex wv) = product at hlo hhi ⊢
  generalize sigma * 436498 * 65536 = bound at hlo hhi ⊢
  constructor <;> omega

end Sys2Proof.Machine

/-! Proofs about spec/41_bitsource.md: GENBITS (R171) and its dependence on its seed alone (R172). The words it writes
are described bit by bit, so that the stream bits follow from one lemma whatever word they lie in. -/

namespace Sys2Proof.Machine

open Sys2Proof.Claims

/-! ## The two ends of a command, in the terms of the claims (R286, R335) -/

theorem endsInError_of_exec {i : Instr} {s : State} {e : CmdError} (hexec : exec i s = .next (s.raiseError e)) :
    EndsInError i (errorCode e).toNat s := ⟨_, hexec, raiseError_errorTaken s e⟩

/-- A completed body has succeeded if all it did to STATUS was to set SAT where the claim says so. -/
theorem succeeded_complete {sats : Prop} {s body : State} (hsat : body.sat = true ↔ s.sat = true ∨ sats)
    (hflags : ∀ i, i < 32 → i ≠ 3 → body.csr.status.getLsbD i = s.csr.status.getLsbD i) :
    Succeeded sats s body.complete := by
  refine ⟨rfl, complete_busy body, complete_status_bit body 1 (by decide), ?sat, ?flags⟩
  case sat =>
    have hkept : body.complete.sat = body.sat := complete_status_bit body 3 (by decide)
    rw [hkept, hsat]
  case flags =>
    intro i hi hother
    simp only [List.mem_cons, List.not_mem_nil, or_false, not_or] at hother
    obtain ⟨hbusy, hdone, hsatBit⟩ := hother
    rw [complete_status_bit body i hi, if_neg hbusy, if_neg hdone, hflags i hi hsatBit]

theorem succeeded_complete_of_status_eq {s body : State} (hstatus : body.csr.status = s.csr.status) :
    Succeeded False s body.complete :=
  succeeded_complete (by rw [sat_eq, sat_eq, hstatus, or_false]) fun _ _ _ => by rw [hstatus]

/-! ## The three outcomes of GENBITS -/

theorem exec_genbits (s : State) : exec .genbits s = finishCommand s (genbitsCheck s) genbitsBody := rfl

theorem exec_genbits_of_zero {s : State} (hzero : s.csr.nbits.toNat = 0) :
    exec .genbits s = .next (s.raiseError .param) := by
  have hcheck : genbitsCheck s = some .param := if_pos hzero
  rw [exec_genbits, hcheck, finishCommand_next]

theorem exec_genbits_of_gt {s : State} (hover : 4096 < s.csr.nbits.toNat) :
    exec .genbits s = .next (s.raiseError .capacity) := by
  have hcheck : genbitsCheck s = some .capacity := (if_neg (Nat.ne_zero_of_lt hover)).trans (if_pos hover)
  rw [exec_genbits, hcheck, finishCommand_next]

theorem exec_genbits_of_legal {s : State} (hpos : 1 ≤ s.csr.nbits.toNat) (hcap : s.csr.nbits.toNat ≤ 4096) :
    exec .genbits s = .next (genbitsBody s).complete := by
  have hcheck : genbitsCheck s = none := (if_neg (Nat.ne_zero_of_lt hpos)).trans (if_neg hcap.not_gt)
  rw [exec_genbits, hcheck, finishCommand_next]

/-! ## The words GENBITS writes (R90, R171) -/

@[simp] theorem genbitsWords_length (s : State) : (genbitsWords s).length = (s.csr.nbits.toNat + 31) / 32 := by
  simp [genbitsWords, State.nbitsVal]

/-- The slice of the drawn bits that goes into word `j`: as many as are left, at most 32. -/
theorem drawnSlice_length (n : Nat) (g : Word) (j : Nat) :
    (((drawnBits n g).drop (32 * j)).take 32).length = min 32 (n - 32 * j) := by simp

theorem drawnSlice_getD {n j r : Nat} (g : Word) (hr : r < 32) (h : 32 * j + r < n) :
    (((drawnBits n g).drop (32 * j)).take 32).getD r false = (rngAfter (32 * j + r + 1) g).getLsbD 31 := by
  rw [List.getD_eq_getElem _ _ (by rw [drawnSlice_length]; omega), List.getElem_take, List.getElem_drop,
    drawnBits_getElem]

/-- Bit `r` of written word `j` is the drawn bit of that place in the stream, or the old bit past the last one. -/
theorem genbitsWords_getLsbD {s : State} {j r : Nat} (hj : j < (genbitsWords s).length) (hr : r < 32) :
    (genbitsWords s)[j].getLsbD r =
      if 32 * j + r < s.csr.nbits.toNat then (rngAfter (32 * j + r + 1) s.csr.brng).getLsbD 31
      else (s.bitWord j).getLsbD r := by
  simp only [genbitsWords, List.getElem_map, List.getElem_range, State.nbitsVal]
  rw [mergeBits_getLsbD _ _ r hr, drawnSlice_length]
  by_cases hdrawn : 32 * j + r < s.csr.nbits.toNat
  · rw [if_pos hdrawn, if_pos (by omega), drawnSlice_getD _ hr hdrawn]
  · rw [if_neg hdrawn, if_neg (by omega)]

/-! ## What GENBITS leaves behind -/

@[simp] theorem complete_streamBit (s : State) (i : Nat) : s.complete.streamBit i = s.streamBit i := rfl

theorem genbitsBody_bitWord_inside {s : State} {j : Nat} (hj : j < (genbitsWords s).length) :
    (genbitsBody s).bitWord j = (genbitsWords s)[j] :=
  putWords_wordAt_inside s _ Config.bitBase (genbitsWords s) j hj rfl

theorem genbitsBody_bitWord_outside {s : State} {j : Nat} (hj : (genbitsWords s).length ≤ j) :
    (genbitsBody s).bitWord j = s.bitWord j :=
  putWords_wordAt_outside s _ Config.bitBase (genbitsWords s) _ rfl rfl (.inr (by omega))

/-- The whole stream after GENBITS: drawn below NBITS, kept from there on (R171). -/
theorem genbitsBody_streamBit (s : State) (i : Nat) :
    (genbitsBody s).streamBit i =
      if i < s.csr.nbits.toNat then (rngAfter (i + 1) s.csr.brng).getLsbD 31 else s.streamBit i := by
  unfold State.streamBit
  rcases Nat.lt_or_ge (i / 32) (genbitsWords s).length with hj | hj
  · rw [genbitsBody_bitWord_inside hj, genbitsWords_getLsbD hj (Nat.mod_lt i (by decide)), Nat.div_add_mod]
  · have hpast : ¬ i < s.csr.nbits.toNat := by rw [genbitsWords_length] at hj; omega
    rw [genbitsBody_bitWord_outside hj, if_neg hpast]

theorem genbitsBody_complete_csrsKept (s : State) : CsrsKept [.status, .brng] s (genbitsBody s).complete := by
  intro c hc
  cases c with
  | status | brng => simp at hc
  | _ => rfl

theorem genbitsBody_complete_bytesKept (s : State) :
    BytesKept (InWords Config.bitBase ((s.csr.nbits.toNat + 31) / 32)) s (genbitsBody s).complete := by
  intro a ha
  refine putWords_byteAt_outside s _ Config.bitBase (genbitsWords s) a rfl rfl ?_
  rw [genbitsWords_length]
  unfold InWords at ha
  omega

/-! ## The statements -/

/-- Settles O10: each legal NBITS runs the body, whose stream is known bit by bit; each illegal one fails its check. -/
theorem genbitsFillsTheBitStream : Obligations.GenbitsFillsTheBitStream := by
  refine ⟨decode_encode .genbits, fun s => ⟨?drawn, ?param, ?capacity⟩⟩
  case drawn =>
    intro hpos hcap
    refine ⟨(genbitsBody s).complete, exec_genbits_of_legal hpos hcap, ?below, ?above, rfl,
      succeeded_complete_of_status_eq rfl, genbitsBody_complete_csrsKept s, genbitsBody_complete_bytesKept s,
      rfl, rfl, rfl, rfl, rfl⟩
    case below =>
      intro i hi
      rw [complete_streamBit, genbitsBody_streamBit, if_pos hi]
    case above =>
      intro i hi _
      rw [complete_streamBit, genbitsBody_streamBit, if_neg hi.not_gt]
  case param => exact fun hzero => endsInError_of_exec (exec_genbits_of_zero hzero)
  case capacity => exact fun hover => endsInError_of_exec (exec_genbits_of_gt hover)

/-- Settles O53: the drawn bits and the last generator state are given by NBITS and BRNG, which the states share. -/
theorem genbitsIsAFunctionOfItsSeed : Obligations.GenbitsIsAFunctionOfItsSeed := by
  intro s u hnbits hbrng hpos hcap
  refine ⟨_, _, exec_genbits_of_legal hpos hcap,
    exec_genbits_of_legal (hnbits ▸ hpos) (hnbits ▸ hcap), ?generator, ?stream⟩
  case generator =>
    show rngAfter s.csr.nbits.toNat s.csr.brng = rngAfter u.csr.nbits.toNat u.csr.brng
    rw [hnbits, hbrng]
  case stream =>
    intro i hi
    have hi' : i < u.csr.nbits.toNat := hnbits ▸ hi
    rw [complete_streamBit, complete_streamBit, genbitsBody_streamBit, genbitsBody_streamBit, if_pos hi, if_pos hi',
      hbrng]

end Sys2Proof.Machine

/-! Proofs about spec/42_mapper.md: the five MAP commands (R181 to R186). What R181 says of every scheme is proved once,
from the exact point of a symbol; each command then adds the words its two coordinates are stored as, and when one of
them saturates. -/

namespace Sys2Proof.Machine

open Sys2Proof.Claims

/-! ## The three outcomes of MAP.s (R181) -/

theorem exec_mapOf (c : Scheme) (s : State) : exec (mapOf c) s = finishCommand s (mapCheck c s) (mapBody c) := by
  cases c <;> rfl

theorem exec_mapOf_of_gt (c : Scheme) {s : State} (hover : 4096 < s.csr.nbits.toNat) :
    exec (mapOf c) s = .next (s.raiseError .capacity) := by
  have hcheck : mapCheck c s = some .capacity := if_pos hover
  rw [exec_mapOf, hcheck, finishCommand_next]

theorem exec_mapOf_of_badLength {c : Scheme} {s : State} (hcap : s.csr.nbits.toNat ≤ 4096)
    (hlength : s.csr.nbits.toNat < bps c ∨ s.csr.nbits.toNat % bps c ≠ 0) :
    exec (mapOf c) s = .next (s.raiseError .bitlen) := by
  have hcheck : mapCheck c s = some .bitlen := (if_neg hcap.not_gt).trans (if_pos hlength)
  rw [exec_mapOf, hcheck, finishCommand_next]

theorem exec_mapOf_of_legal {c : Scheme} {s : State} (hlow : bps c ≤ s.csr.nbits.toNat)
    (hmultiple : s.csr.nbits.toNat % bps c = 0) (hcap : s.csr.nbits.toNat ≤ 4096) :
    exec (mapOf c) s = .next (mapBody c s).complete := by
  have hcheck : mapCheck c s = none :=
    (if_neg hcap.not_gt).trans (if_neg (not_or_intro hlow.not_gt (not_not_intro hmultiple)))
  rw [exec_mapOf, hcheck, finishCommand_next]

/-! ## The entries MAP.s writes (20_memory.md R91) -/

theorem mapEntries_even {c : Scheme} {s : State} {k : Nat} (hk : 2 * k < (mapEntries c s).length) :
    (mapEntries c s)[2 * k] = (symbolPoint c s k).1 := by simp [mapEntries]

theorem mapEntries_odd {c : Scheme} {s : State} {k : Nat} (hk : 2 * k + 1 < (mapEntries c s).length) :
    (mapEntries c s)[2 * k + 1] = (symbolPoint c s k).2 := by
  have hhalf : (2 * k + 1) / 2 = k := by omega
  simp [mapEntries, Nat.add_mod, hhalf]

/-- A coordinate of symbol `k` saturates when it is stored. -/
def PointSaturates (c : Scheme) (s : State) (k : Nat) : Prop :=
  saturates (symbolPoint c s k).1 = true ∨ saturates (symbolPoint c s k).2 = true

theorem mapEntries_any_saturates (c : Scheme) (s : State) :
    (mapEntries c s).any saturates = true ↔ ∃ k, k < mapCount c s ∧ PointSaturates c s k := by
  rw [List.any_eq_true, List.exists_mem_iff_getElem]
  have hlength := mapEntries_length c s
  constructor
  · rintro ⟨j, hj, hsat⟩
    obtain ⟨k, rfl | rfl⟩ := Nat.even_or_odd' j
    · rw [mapEntries_even] at hsat
      exact ⟨k, by omega, .inl hsat⟩
    · rw [mapEntries_odd] at hsat
      exact ⟨k, by omega, .inr hsat⟩
  · rintro ⟨k, hk, hsat | hsat⟩
    · exact ⟨2 * k, by omega, by rwa [mapEntries_even]⟩
    · exact ⟨2 * k + 1, by omega, by rwa [mapEntries_odd]⟩

/-! ## What MAP.s leaves behind -/

theorem mapBody_complete_symWord (c : Scheme) (s : State) {j : Nat} (hj : j < (mapEntries c s).length) :
    (mapBody c s).complete.symWord j = storedWord (mapEntries c s)[j] :=
  storeResults_wordAt s _ Config.symBase (mapEntries c s) j hj rfl

theorem symCountVal_mapBody {c : Scheme} {s : State} (hcap : s.csr.nbits.toNat ≤ 4096) :
    (mapBody c s).symCountVal = mapCount c s := by
  have hcount : mapCount c s ≤ s.csr.nbits.toNat := mapCount_le c s
  exact (BitVec.toNat_ofNat _ 32).trans (Nat.mod_eq_of_lt (by omega))

theorem mapBody_status_bit (c : Scheme) (s : State) (i : Nat) :
    (mapBody c s).csr.status.getLsbD i =
      if i = 3 then s.csr.status.getLsbD 3 || (mapEntries c s).any saturates else s.csr.status.getLsbD i :=
  storeResults_status_bit s Config.symBase (mapEntries c s) i

theorem mapBody_sat (c : Scheme) (s : State) :
    (mapBody c s).sat = true ↔ s.sat = true ∨ ∃ k, k < mapCount c s ∧ PointSaturates c s k := by
  rw [sat_eq, mapBody_status_bit, if_pos rfl, Bool.or_eq_true, mapEntries_any_saturates, sat_eq]

theorem mapBody_complete_succeeded (c : Scheme) (s : State) :
    Succeeded (∃ k, k < mapCount c s ∧ PointSaturates c s k) s (mapBody c s).complete :=
  succeeded_complete (mapBody_sat c s) fun i _ hother => by rw [mapBody_status_bit, if_neg hother]

theorem mapBody_complete_csrsKept (c : Scheme) (s : State) :
    CsrsKept [.status, .symCount, .symInfo] s (mapBody c s).complete := by
  intro r hr
  cases r with
  | status | symCount | symInfo => simp at hr
  | _ => rfl

theorem mapBody_complete_bytesKept (c : Scheme) (s : State) :
    BytesKept (InWords Config.symBase (2 * mapCount c s)) s (mapBody c s).complete := by
  intro a ha
  refine storeResults_byteAt s _ Config.symBase (mapEntries c s) a rfl rfl ?_
  rw [mapEntries_length]
  unfold InWords at ha
  omega

/-- R181 for any scheme: what is left to each command is the words its points are stored as, and which points
saturate. -/
theorem mapsSymbols_of_points (c : Scheme) {entry : State → Nat → Word × Word} {sats : State → Prop}
    (hentry : ∀ s k, (storedWord (symbolPoint c s k).1, storedWord (symbolPoint c s k).2) = entry s k)
    (hsats : ∀ s, s.csr.nbits.toNat % bps c = 0 →
      ((∃ k, k < mapCount c s ∧ PointSaturates c s k) ↔ sats s)) :
    MapsSymbols (mapOf c) (BitVec.ofNat 32 (16 * schemeCode c + 2)) (bps c) (infoWord (schemeKind c) (schemeCode c))
      entry sats := by
  refine ⟨by rw [← encode_mapOf, decode_encode], fun s => ⟨?legal, ?capacity, ?bitlen⟩⟩
  case legal =>
    intro hlow hmultiple hcap
    have hsucceeded := mapBody_complete_succeeded c s
    rw [hsats s hmultiple] at hsucceeded
    refine ⟨_, exec_mapOf_of_legal hlow hmultiple hcap, ?words, symCountVal_mapBody hcap, rfl, hsucceeded,
      mapBody_complete_csrsKept c s, mapBody_complete_bytesKept c s, rfl, rfl, rfl, rfl, rfl⟩
    intro k hk
    have hwords : 2 * k + 1 < (mapEntries c s).length := by
      rw [mapEntries_length, mapCount, State.nbitsVal]
      omega
    rw [mapBody_complete_symWord c s (Nat.lt_of_succ_lt hwords), mapBody_complete_symWord c s hwords, mapEntries_even,
      mapEntries_odd, ← hentry]
    exact ⟨rfl, rfl⟩
  case capacity => exact fun hover => endsInError_of_exec (exec_mapOf_of_gt c hover)
  case bitlen => exact fun hcap hlength => endsInError_of_exec (exec_mapOf_of_badLength hcap hlength)

/-- `mapsSymbols_of_points` for a scheme none of whose points saturates. -/
theorem mapsSymbols_of_no_saturation (c : Scheme) {entry : State → Nat → Word × Word}
    (hentry : ∀ s k, (storedWord (symbolPoint c s k).1, storedWord (symbolPoint c s k).2) = entry s k)
    (hnone : ∀ s k, ¬ PointSaturates c s k) :
    MapsSymbols (mapOf c) (BitVec.ofNat 32 (16 * schemeCode c + 2)) (bps c) (infoWord (schemeKind c) (schemeCode c))
      entry fun _ => False :=
  mapsSymbols_of_points c hentry fun s _ => iff_false_intro fun ⟨k, _, hk⟩ => hnone s k hk

/-! ## The coordinates as stored words (40_kernels.md R140) -/

theorem storedWord_of_not_saturates {v : Int} (h : saturates v = false) : storedWord v = BitVec.ofInt 32 v := by
  rw [storedWord, sat32_of_not_saturates v h]

/-- Every word, read as s32, is in the s32 range. -/
theorem toInt_range (a : Word) : s32Min ≤ a.toInt ∧ a.toInt ≤ s32Max := by
  have hlo := a.le_toInt
  have hhi := a.toInt_lt
  unfold s32Min s32Max
  omega

@[simp] theorem saturates_toInt (a : Word) : saturates a.toInt = false :=
  have ⟨hlo, hhi⟩ := toInt_range a
  saturates_of_mem hlo hhi

@[simp] theorem storedWord_of_toInt (a : Word) : storedWord a.toInt = a := by
  rw [storedWord_of_not_saturates (saturates_toInt a), BitVec.ofInt_toInt]

@[simp] theorem saturates_zero : saturates 0 = false := rfl
@[simp] theorem saturates_one : saturates 1 = false := rfl
@[simp] theorem storedWord_zero : storedWord 0 = 0#32 := rfl
@[simp] theorem storedWord_one : storedWord 1 = 1#32 := rfl

/-- -2^31 is the one word whose negation leaves the s32 range. -/
@[simp] theorem saturates_neg_toInt (a : Word) : saturates (-a.toInt) = decide (a = 0x80000000#32) := by
  by_cases ha : a = 0x80000000#32
  · rw [ha]; rfl
  · have hne : a.toInt ≠ s32Min := fun h => ha (BitVec.eq_of_toInt_eq h)
    obtain ⟨hlo, hhi⟩ := toInt_range a
    obtain ⟨hlo', hhi'⟩ : s32Min ≤ -a.toInt ∧ -a.toInt ≤ s32Max := by
      unfold s32Min s32Max at *
      omega
    rw [decide_eq_false ha]
    exact saturates_of_mem hlo' hhi'

@[simp] theorem storedWord_neg_toInt (a : Word) : storedWord (-a.toInt) = satNeg a := by
  by_cases ha : a = 0x80000000#32
  · rw [ha]; rfl
  · have hsat : saturates (-a.toInt) = false := by rw [saturates_neg_toInt, decide_eq_false ha]
    rw [storedWord_of_not_saturates hsat, BitVec.ofInt_neg, BitVec.ofInt_toInt, satNeg, if_neg ha]

/-! ## ASK and FSK (R182, R183) -/

/-- Settles O11: a 1 bit stores AMP and a 0 bit 0, both words as they are. -/
theorem mapAskKeysTheAmplitude : Obligations.MapAskKeysTheAmplitude := by
  refine mapsSymbols_of_no_saturation .ask (fun s k => ?entry) fun s k => ?sat
  case entry => cases h : s.streamBit k <;> simp [symbolPoint, pointAsk, State.ampVal, h]
  case sat => cases h : s.streamBit k <;> simp [PointSaturates, symbolPoint, pointAsk, State.ampVal, h]

/-- Settles O12: the tone bit is stored as 1 or 0, which never saturates. -/
theorem mapFskStoresTheTone : Obligations.MapFskStoresTheTone := by
  refine mapsSymbols_of_no_saturation .fsk (fun s k => ?entry) fun s k => ?sat
  case entry => cases h : s.streamBit k <;> simp [symbolPoint, pointFsk, h]
  case sat => cases h : s.streamBit k <;> simp [PointSaturates, symbolPoint, pointFsk, h]

/-! ## BPSK (R184) -/

theorem pointSaturates_bpsk (s : State) (k : Nat) :
    PointSaturates .bpsk s k ↔ s.csr.amp = 0x80000000#32 ∧ s.streamBit k = false := by
  cases h : s.streamBit k <;> simp [PointSaturates, symbolPoint, pointBpsk, State.ampVal, h]

/-- Settles O13: a 0 bit negates AMP, which leaves the range only for -2^31; symbol k is bit k. -/
theorem mapBpskKeysThePhase : Obligations.MapBpskKeysThePhase := by
  refine mapsSymbols_of_points .bpsk (fun s k => ?entry) fun s _ => ?sat
  case entry => cases h : s.streamBit k <;> simp [symbolPoint, pointBpsk, State.ampVal, h]
  case sat =>
    have hcount : mapCount .bpsk s = s.csr.nbits.toNat := Nat.div_one _
    simp only [hcount, pointSaturates_bpsk]
    exact ⟨fun ⟨k, hk, hamp, hbit⟩ => ⟨hamp, k, hk, hbit⟩, fun ⟨hamp, k, hk, hbit⟩ => ⟨k, hk, hamp, hbit⟩⟩

/-! ## QPSK (R185) -/

theorem storedWord_signed (minus : Bool) (a : Word) :
    storedWord (if minus then -a.toInt else a.toInt) = if minus then satNeg a else a := by
  cases minus
  · exact storedWord_of_toInt a
  · exact storedWord_neg_toInt a

theorem saturates_signed (minus : Bool) (a : Word) :
    saturates (if minus then -a.toInt else a.toInt) = (minus && decide (a = 0x80000000#32)) := by
  cases minus
  · exact saturates_toInt a
  · exact saturates_neg_toInt a

/-- The Gray code of R185, one axis at a time: g1 is the sign of I, g0 the sign of Q. -/
theorem pointQpsk_eq (g0 g1 : Bool) (a : Int) :
    pointQpsk g0 g1 a = (if g1 then -a else a, if g0 then -a else a) := by
  cases g0 <;> cases g1 <;> rfl

theorem pointSaturates_qpsk (s : State) (k : Nat) :
    PointSaturates .qpsk s k ↔
      s.csr.amp = 0x80000000#32 ∧ (s.streamBit (2 * k + 1) = true ∨ s.streamBit (2 * k) = true) := by
  simp only [PointSaturates, symbolPoint, pointQpsk_eq, State.ampVal, saturates_signed, Bool.and_eq_true,
    decide_eq_true_eq]
  rw [← or_and_right, and_comm]

/-- Settles O14: each bit is the sign of one coordinate, and bit i belongs to symbol i / 2. -/
theorem mapQpskIsGrayCoded : Obligations.MapQpskIsGrayCoded := by
  refine mapsSymbols_of_points .qpsk (fun s k => ?entry) fun s heven => ?sat
  case entry => simp only [symbolPoint, pointQpsk_eq, State.ampVal, storedWord_signed]
  case sat =>
    change s.csr.nbits.toNat % 2 = 0 at heven
    have hcount : mapCount .qpsk s = s.csr.nbits.toNat / 2 := rfl
    simp only [hcount, pointSaturates_qpsk]
    constructor
    · rintro ⟨k, hk, hamp, hbit | hbit⟩
      · exact ⟨hamp, 2 * k + 1, by omega, hbit⟩
      · exact ⟨hamp, 2 * k, by omega, hbit⟩
    · rintro ⟨hamp, i, hi, hbit⟩
      obtain ⟨k, rfl | rfl⟩ := Nat.even_or_odd' i
      · exact ⟨k, by omega, hamp, .inr hbit⟩
      · exact ⟨k, by omega, hamp, .inl hbit⟩

/-! ## QAM16 (R186) -/

theorem axisLevel_eq (x y : Bool) :
    axisLevel x y = if x then (if y then -1 else -3) else (if y then 1 else 3) := by
  cases x <;> cases y <;> rfl

/-- A level of at most 3 · 20724 < 2^16 keeps AMP in the s32 range. -/
theorem axis_range (x y : Bool) (a : Word) :
    s32Min ≤ shr16 (axisLevel x y * Config.k10 * a.toInt) ∧
      shr16 (axisLevel x y * Config.k10 * a.toInt) ≤ s32Max := by
  obtain ⟨hlo, hhi⟩ := toInt_range a
  unfold s32Min s32Max at *
  unfold shr16 Config.k10
  cases x <;> cases y <;> simp only [axisLevel] <;> omega

theorem saturates_axis (x y : Bool) (a : Word) :
    saturates (shr16 (axisLevel x y * Config.k10 * a.toInt)) = false :=
  have ⟨hlo, hhi⟩ := axis_range x y a
  saturates_of_mem hlo hhi

theorem storedWord_axis (x y : Bool) (a : Word) :
    storedWord (shr16 (axisLevel x y * Config.k10 * a.toInt)) =
      BitVec.ofInt 32 ((if x then (if y then -1 else -3) else (if y then 1 else 3)) * 20724 * a.toInt / 65536) := by
  rw [storedWord_of_not_saturates (saturates_axis x y a), axisLevel_eq, shr16, Config.k10]

/-- Settles O15: no coordinate leaves the s32 range, so each is stored as it is. -/
theorem mapQam16ScalesTheAxes : Obligations.MapQam16ScalesTheAxes := by
  refine mapsSymbols_of_no_saturation .qam16 (fun s k => ?entry) fun s k => ?sat
  case entry => simp only [symbolPoint, pointQam16, State.ampVal, storedWord_axis]
  case sat => simp [PointSaturates, symbolPoint, pointQam16, State.ampVal, saturates_axis]

end Sys2Proof.Machine

/-! Proofs about spec/43_synth.md: SYNTH (R202 to R204), the half turn of R205, and the round trip through DEMOD at a
quarter cycle per sample (R242, R246). What R202 says of either kind is proved once, from the exact value of a sample;
the two kinds then add which exact value that is. -/

namespace Sys2Proof.Machine

open Sys2Proof.Claims

/-! ## The kernels in the terms of the claims (R140, R145, R146) -/

theorem storedWord_eq_clampWord (v : Int) : storedWord v = clampWord v := by
  have hclamp : sat32 v = max (-2147483648) (min 2147483647 v) := by
    unfold sat32 s32Max s32Min
    split_ifs <;> omega
  rw [storedWord, hclamp, clampWord]

theorem saturates_iff_outOfRange (v : Int) : saturates v = true ↔ OutOfRange v := by
  rw [saturates, Bool.or_eq_true, decide_eq_true_eq, decide_eq_true_eq]
  exact Iff.rfl

theorem cosNco_eq (m : Nat) (f : Word) : cosNco m f = cosLut (ncoIndex m f) := congrArg cosLut (lutIndex_phase m f)

theorem sinNco_eq (m : Nat) (f : Word) : sinNco m f = sinLut (ncoIndex m f) := congrArg sinLut (lutIndex_phase m f)

theorem synthSample_of_iq {s : State} (hkind : s.csr.symInfo.toNat % 4 = 1) (m : Nat) :
    synthSample s m = iqExact s m := by
  rw [synthSample, kindOf_eq, if_pos hkind, sampleIQ, cosNco_eq, sinNco_eq]
  rfl

theorem synthSample_of_tone {s : State} (hkind : s.csr.symInfo.toNat % 4 = 2) (m : Nat) :
    synthSample s m = toneExact s m := by
  rw [synthSample, kindOf_eq, if_neg (by omega), sampleTone, cosNco_eq]
  rfl

/-! ## SYNTH past its checks, and what it leaves behind (R202) -/

theorem exec_synth_of_legal {s : State} (hkind : s.csr.symInfo.toNat % 4 ≠ 0) (hnsps : 1 ≤ s.csr.nsps.toNat)
    (hcap : s.csr.symCount.toNat * s.csr.nsps.toNat ≤ 65536) :
    exec .synth s = .next (synthBody s).complete := by
  have hcheck : synthCheck s = none := by
    rw [← kindOf_eq] at hkind
    exact (if_neg hkind).trans ((if_neg (Nat.ne_zero_of_lt hnsps)).trans (if_neg hcap.not_gt))
  show finishCommand s (synthCheck s) synthBody = _
  rw [hcheck, finishCommand_next]

theorem synthBody_complete_sigWord {s : State} {m : Nat} (hm : m < synthCount s) :
    (synthBody s).complete.sigWord m = storedWord (synthSample s m) := by
  have hword := storeResults_wordAt s (synthBody s).complete Config.sigBase
    ((List.range (synthCount s)).map (synthSample s)) m (by simpa using hm) rfl
  rw [State.sigWord, hword, List.getElem_map, List.getElem_range]

theorem complete_sigCountVal (s : State) : s.complete.sigCountVal = s.sigCountVal := rfl

theorem synthBody_complete_sigCountVal {s : State} (hcap : synthCount s ≤ 65536) :
    (synthBody s).complete.sigCountVal = synthCount s := by
  rw [complete_sigCountVal, sigCountVal_synthBody hcap]

theorem synthBody_status_bit (s : State) (i : Nat) :
    (synthBody s).csr.status.getLsbD i =
      if i = 3 then s.csr.status.getLsbD 3 || ((List.range (synthCount s)).map (synthSample s)).any saturates
      else s.csr.status.getLsbD i :=
  storeResults_status_bit s Config.sigBase _ i

theorem synthBody_sat (s : State) :
    (synthBody s).sat = true ↔ s.sat = true ∨ ∃ m, m < synthCount s ∧ OutOfRange (synthSample s m) := by
  rw [sat_eq, synthBody_status_bit, if_pos rfl, Bool.or_eq_true, ← sat_eq]
  simp [saturates_iff_outOfRange]

theorem synthBody_complete_succeeded (s : State) :
    Succeeded (∃ m, m < synthCount s ∧ OutOfRange (synthSample s m)) s (synthBody s).complete :=
  succeeded_complete (synthBody_sat s) fun i _ hother => by rw [synthBody_status_bit, if_neg hother]

theorem synthBody_complete_csrsKept (s : State) :
    CsrsKept [.status, .sigCount, .sigInfo] s (synthBody s).complete := by
  intro r hr
  cases r with
  | status | sigCount | sigInfo => simp at hr
  | _ => rfl

theorem synthBody_complete_bytesKept (s : State) :
    BytesKept (InWords Config.sigBase (synthCount s)) s (synthBody s).complete := by
  intro a ha
  refine storeResults_byteAt s _ Config.sigBase ((List.range (synthCount s)).map (synthSample s)) a rfl rfl ?_
  rw [List.length_map, List.length_range]
  unfold InWords at ha
  omega

@[simp] theorem complete_sat (s : State) : s.complete.sat = s.sat := complete_status_bit s 3 (by decide)

theorem synthBody_sat_of_inRange {s : State} (hrange : ∀ m, m < synthCount s → saturates (synthSample s m) = false) :
    (synthBody s).sat = s.sat := by
  have hany : ((List.range (synthCount s)).map (synthSample s)).any saturates = false := by simpa using hrange
  rw [sat_eq, synthBody_status_bit, if_pos rfl, hany, Bool.or_false, sat_eq]

/-- A sample that is not saturated is what DEMOD reads back. -/
theorem synthBody_complete_sample {s : State} {m : Nat} (hm : m < synthCount s)
    (hrange : saturates (synthSample s m) = false) : (synthBody s).complete.sample m = synthSample s m := by
  rw [State.sample, synthBody_complete_sigWord hm, storedWord_toInt, sat32_of_not_saturates _ hrange]

/-- R202 for either kind: what is left to each is the exact value of its samples. -/
theorem synthesisesFrom_of_samples {exact : State → Nat → Int} {s : State} (hkind : s.csr.symInfo.toNat % 4 ≠ 0)
    (hnsps : 1 ≤ s.csr.nsps.toNat) (hcap : s.csr.symCount.toNat * s.csr.nsps.toNat ≤ 65536)
    (hsample : ∀ m, synthSample s m = exact s m) : SynthesisesFrom exact s := by
  have hsucceeded := synthBody_complete_succeeded s
  simp only [hsample] at hsucceeded
  refine ⟨_, exec_synth_of_legal hkind hnsps hcap, ?words, synthBody_complete_sigCountVal hcap,
    infoWord_carry s.csr.symInfo, hsucceeded, synthBody_complete_csrsKept s, synthBody_complete_bytesKept s, rfl, rfl,
    rfl, rfl, rfl⟩
  intro m hm
  rw [synthBody_complete_sigWord hm, hsample, storedWord_eq_clampWord]

/-! ## The two kinds (R203, R204) -/

/-- Settles O16: with KIND 1 the exact value of a sample is R203's. -/
theorem synthOfIqSymbols : Obligations.SynthOfIqSymbols := fun _ hkind hnsps hcap =>
  synthesisesFrom_of_samples (by omega) hnsps hcap (synthSample_of_iq hkind)

/-- A product of an s32 value and a table entry reaches 2^31 × 65536 only at the two most negative factors. -/
theorem factors_of_top_product {x y : Int} (hx : -2147483648 ≤ x) (hx' : x ≤ 2147483647) (hy : |y| ≤ 65536)
    (htop : 2147483648 * 65536 ≤ x * y) : x = -2147483648 ∧ y = -65536 := by
  obtain ⟨hlow, hhigh⟩ := abs_le.mp hy
  rcases le_total 0 x with hpos | hneg
  · have hbound : x * y ≤ x * 65536 := mul_le_mul_of_nonneg_left hhigh hpos
    omega
  · have hbound : x * y ≤ x * -65536 := mul_le_mul_of_nonpos_left hlow hneg
    obtain rfl : x = -2147483648 := by omega
    omega

theorem factors_of_outOfRange_sample {x y : Int} (hx : -2147483648 ≤ x) (hx' : x ≤ 2147483647) (hy : |y| ≤ 65536)
    (hout : OutOfRange (x * y / 65536)) : x = -2147483648 ∧ y = -65536 := by
  have hmagnitude : |x * y| ≤ 2147483648 * 65536 := by
    rw [abs_mul]
    exact mul_le_mul (abs_le.mpr ⟨hx, by omega⟩) hy (abs_nonneg y) (by decide)
  have hbottom := (abs_le.mp hmagnitude).1
  rcases hout with htop | hbelow
  · exact factors_of_top_product hx hx' hy (by omega)
  · omega

/-- Settles O17: with KIND 2 the exact value of a sample is R204's, and it leaves the range only at the two most negative
factors. -/
theorem synthOfToneSymbols : Obligations.SynthOfToneSymbols := by
  refine ⟨fun _ hkind hnsps hcap => synthesisesFrom_of_samples (by omega) hnsps hcap (synthSample_of_tone hkind),
    fun s m hout => ?saturation⟩
  case saturation =>
    obtain ⟨hlow, hhigh⟩ := toInt_range s.csr.amp
    obtain ⟨hamp, hentry⟩ := factors_of_outOfRange_sample hlow hhigh (abs_cosLut_le _) hout
    exact ⟨BitVec.eq_of_toInt_eq hamp, hentry⟩

/-! ## The half turn (R205) -/

theorem lutIndex_lt (w : Word) : lutIndex w < 1024 := by
  have := w.isLt
  unfold lutIndex
  omega

theorem lutIndex_add_halfTurn (w : Word) : lutIndex (w + 0x80000000#32) = (lutIndex w + 512) % 1024 := by
  have hadd : (w + 0x80000000#32).toNat = (w.toNat + 2147483648) % 4294967296 := BitVec.toNat_add _ _
  unfold lutIndex
  omega

/-- Settles O47: half a turn moves the index by 512, where the table has the negated entry (R144). -/
theorem halfTurnNegatesTheSample : Obligations.HalfTurnNegatesTheSample := by
  intro a m f
  rw [lutIndex_add_halfTurn, cosLut_halfTurn (lutIndex_lt _), mul_neg, neg_mul]

/-! ## DEMOD of an IQ signal past its checks, and what it leaves behind (R241, R242) -/

theorem exec_demod_of_iq {s : State} (hkind : s.csr.sigInfo.toNat % 4 = 1) (hcap : s.sigCountVal ≤ 65536)
    (hnsps : 1 ≤ s.nspsVal) (hmultiple : s.sigCountVal % s.nspsVal = 0) (hwindows : demodCount s ≤ 4096) :
    exec .demod s = .next (demodBody s).complete := by
  have hcheck : demodCheck s = none := by
    rw [← kindOf_eq] at hkind
    exact (if_neg (by omega)).trans ((if_neg (by omega)).trans ((if_neg hcap.not_gt).trans
      ((if_neg (Nat.ne_zero_of_lt hnsps)).trans ((if_neg (not_not_intro hmultiple)).trans (if_neg hwindows.not_gt)))))
  show finishCommand s (demodCheck s) demodBody = _
  rw [hcheck, finishCommand_next]

theorem demodEntries_even {s : State} {k : Nat} (hk : 2 * k < (demodEntries s).length) :
    (demodEntries s)[2 * k] = estimateI s k := by simp [demodEntries]

theorem demodEntries_odd {s : State} {k : Nat} (hk : 2 * k + 1 < (demodEntries s).length) :
    (demodEntries s)[2 * k + 1] = estimateQ s k := by
  have hhalf : (2 * k + 1) / 2 = k := by omega
  simp [demodEntries, Nat.add_mod, hhalf]

theorem demodBody_of_iq {s : State} (hkind : s.csr.sigInfo.toNat % 4 = 1) :
    demodBody s =
      { s.storeResults Config.estBase (demodEntries s) with
        csr := { (s.storeResults Config.estBase (demodEntries s)).csr with
          estCount := BitVec.ofNat 32 (demodCount s)
          estInfo := estInfoValid s } } :=
  if_neg (by rw [kindOf_eq]; omega)

theorem demodBody_complete_estWord {s : State} (hkind : s.csr.sigInfo.toNat % 4 = 1) {j : Nat}
    (hj : j < (demodEntries s).length) : (demodBody s).complete.estWord j = storedWord (demodEntries s)[j] :=
  storeResults_wordAt s _ Config.estBase (demodEntries s) j hj (by rw [demodBody_of_iq hkind]; rfl)

theorem demodBody_status_bit {s : State} (hkind : s.csr.sigInfo.toNat % 4 = 1) (i : Nat) :
    (demodBody s).csr.status.getLsbD i =
      if i = 3 then s.csr.status.getLsbD 3 || (demodEntries s).any saturates else s.csr.status.getLsbD i := by
  rw [demodBody_of_iq hkind]
  exact storeResults_status_bit s Config.estBase (demodEntries s) i

theorem demodBody_sat_of_inRange {s : State} (hkind : s.csr.sigInfo.toNat % 4 = 1)
    (hrange : (demodEntries s).any saturates = false) : (demodBody s).sat = s.sat := by
  rw [sat_eq, demodBody_status_bit hkind, if_pos rfl, hrange, Bool.or_false, sat_eq]

/-! ## A quarter cycle per sample and 4 samples per symbol

The four samples of a symbol meet the table entries of a quarter turn each, which are 0 and ±65536: synthesis gives the
symbol's own coordinates, one of each sign, and no floor rounds. -/

/-- NSPS = 4 and CAR_FCW = 2^30. -/
structure AtQuarterCycle (s : State) : Prop where
  nsps : s.csr.nsps = 4#32
  carFcw : s.csr.carFcw = 0x40000000#32

theorem AtQuarterCycle.nspsVal {s : State} (h : AtQuarterCycle s) : s.nspsVal = 4 := congrArg BitVec.toNat h.nsps

theorem AtQuarterCycle.ncoIndex {s : State} (h : AtQuarterCycle s) (k : Nat) {n : Nat} (hn : n < 4) :
    ncoIndex (4 * k + n) s.csr.carFcw = 256 * n := by
  rw [h.carFcw]
  show (4 * k + n) * 1073741824 % 4294967296 / 4194304 = _
  omega

theorem cosLut_quarters : cosLut 0 = 65536 ∧ cosLut 256 = 0 ∧ cosLut 512 = -65536 ∧ cosLut 768 = 0 := by
  decide +kernel

/-- The sine is the cosine a quarter of the table back (R143). -/
theorem sinLut_quarters : sinLut 0 = 0 ∧ sinLut 256 = 65536 ∧ sinLut 512 = 0 ∧ sinLut 768 = -65536 := by
  obtain ⟨h0, h1, h2, h3⟩ := cosLut_quarters
  exact ⟨h3, h0, h1, h2⟩

theorem AtQuarterCycle.cosNco {s : State} (h : AtQuarterCycle s) (k : Nat) :
    cosNco (4 * k) s.csr.carFcw = 65536 ∧ cosNco (4 * k + 1) s.csr.carFcw = 0 ∧
    cosNco (4 * k + 2) s.csr.carFcw = -65536 ∧ cosNco (4 * k + 3) s.csr.carFcw = 0 := by
  have hentry {n : Nat} (hn : n < 4) : Machine.cosNco (4 * k + n) s.csr.carFcw = cosLut (256 * n) := by
    rw [cosNco_eq, h.ncoIndex k hn]
  obtain ⟨h0, h1, h2, h3⟩ := cosLut_quarters
  exact ⟨(hentry (n := 0) (by decide)).trans h0, (hentry (by decide)).trans h1, (hentry (by decide)).trans h2,
    (hentry (by decide)).trans h3⟩

theorem AtQuarterCycle.sinNco {s : State} (h : AtQuarterCycle s) (k : Nat) :
    sinNco (4 * k) s.csr.carFcw = 0 ∧ sinNco (4 * k + 1) s.csr.carFcw = 65536 ∧
    sinNco (4 * k + 2) s.csr.carFcw = 0 ∧ sinNco (4 * k + 3) s.csr.carFcw = -65536 := by
  have hentry {n : Nat} (hn : n < 4) : Machine.sinNco (4 * k + n) s.csr.carFcw = sinLut (256 * n) := by
    rw [sinNco_eq, h.ncoIndex k hn]
  obtain ⟨h0, h1, h2, h3⟩ := sinLut_quarters
  exact ⟨(hentry (n := 0) (by decide)).trans h0, (hentry (by decide)).trans h1, (hentry (by decide)).trans h2,
    (hentry (by decide)).trans h3⟩

/-- Synthesis (R203): the four samples of symbol (I, Q) are I, -Q, -I and Q. -/
theorem AtQuarterCycle.synthSample {s : State} (h : AtQuarterCycle s) (hkind : s.csr.symInfo.toNat % 4 = 1) (k : Nat) :
    synthSample s (4 * k) = (s.symWord (2 * k)).toInt ∧
    synthSample s (4 * k + 1) = -(s.symWord (2 * k + 1)).toInt ∧
    synthSample s (4 * k + 2) = -(s.symWord (2 * k)).toInt ∧
    synthSample s (4 * k + 3) = (s.symWord (2 * k + 1)).toInt := by
  have hsample {m : Nat} (hm : m / 4 = k) : Machine.synthSample s m = shr16 ((s.symWord (2 * k)).toInt *
      Machine.cosNco m s.csr.carFcw - (s.symWord (2 * k + 1)).toInt * Machine.sinNco m s.csr.carFcw) := by
    rw [Machine.synthSample, kindOf_eq, if_pos hkind, h.nspsVal, hm, sampleIQ]
  obtain ⟨hcos0, hcos1, hcos2, hcos3⟩ := h.cosNco k
  obtain ⟨hsin0, hsin1, hsin2, hsin3⟩ := h.sinNco k
  unfold shr16 at hsample
  refine ⟨?_, ?_, ?_, ?_⟩
  · rw [hsample (by omega), hcos0, hsin0]; omega
  · rw [hsample (by omega), hcos1, hsin1]; omega
  · rw [hsample (by omega), hcos2, hsin2]; omega
  · rw [hsample (by omega), hcos3, hsin3]; omega

/-- Correlation (R242) with gain 2: each arm is half the difference of the two samples its carrier does not cancel. -/
theorem AtQuarterCycle.estimates {s : State} (h : AtQuarterCycle s) (hgain : s.csr.ctrl.getLsbD 0 = true) (k : Nat) :
    estimateI s k = (s.sample (4 * k) - s.sample (4 * k + 2)) / 2 ∧
    estimateQ s k = (s.sample (4 * k + 3) - s.sample (4 * k + 1)) / 2 := by
  have hdouble : demodGain s = 2 := if_pos hgain
  have haccI : accI s k 4 = 65536 * (s.sample (4 * k) - s.sample (4 * k + 2)) := by
    obtain ⟨hcos0, hcos1, hcos2, hcos3⟩ := h.cosNco k
    simp only [accI, h.nspsVal, Nat.mul_comm k, Nat.add_zero, hcos0, hcos1, hcos2, hcos3]
    ring
  have haccQ : accQ s k 4 = 65536 * (s.sample (4 * k + 3) - s.sample (4 * k + 1)) := by
    obtain ⟨hsin0, hsin1, hsin2, hsin3⟩ := h.sinNco k
    simp only [accQ, h.nspsVal, Nat.mul_comm k, Nat.add_zero, hsin0, hsin1, hsin2, hsin3]
    ring
  have hfloor (d : Int) : fdiv (2 * (65536 * d)) ((4 : Nat) * 65536) = d / 2 := by
    rw [fdiv, Int.fdiv_eq_ediv_of_nonneg _ (by decide)]
    omega
  rw [estimateI, estimateQ, h.nspsVal, hdouble, haccI, haccQ, hfloor, hfloor]
  exact ⟨rfl, rfl⟩

/-! ## The round trip at a quarter cycle (R246) -/

/-- The symbol buffer of the round trip: IQ-kind, of legal size, and no coordinate is the one word without a negation. -/
structure QuarterCycleSymbols (s : State) : Prop extends AtQuarterCycle s where
  kind : s.csr.symInfo.toNat % 4 = 1
  count : s.symCountVal ≤ 4096
  words : ∀ j, j < 2 * s.symCountVal → s.symWord j ≠ 0x80000000#32

theorem QuarterCycleSymbols.synthCount {s : State} (h : QuarterCycleSymbols s) : synthCount s = s.symCountVal * 4 := by
  rw [Machine.synthCount, h.nspsVal]

theorem QuarterCycleSymbols.exec_synth {s : State} (h : QuarterCycleSymbols s) :
    exec .synth s = .next (synthBody s).complete := by
  have hcap : Machine.synthCount s ≤ 65536 := by have := h.count; rw [h.synthCount]; omega
  exact exec_synth_of_legal (by have := h.kind; omega) (by rw [h.nsps]; decide) hcap

/-- Every sample is a coordinate or the negation of one. -/
theorem QuarterCycleSymbols.sample_inRange {s : State} (h : QuarterCycleSymbols s) {m : Nat}
    (hm : m < Machine.synthCount s) : saturates (synthSample s m) = false := by
  rw [h.synthCount] at hm
  have hneg {j : Nat} (hj : j < 2 * s.symCountVal) : saturates (-(s.symWord j).toInt) = false := by
    rw [saturates_neg_toInt, decide_eq_false (h.words j hj)]
  obtain ⟨h0, h1, h2, h3⟩ := h.synthSample h.kind (m / 4)
  obtain hn | hn | hn | hn : m = 4 * (m / 4) ∨ m = 4 * (m / 4) + 1 ∨ m = 4 * (m / 4) + 2 ∨ m = 4 * (m / 4) + 3 := by
    omega
  · rw [hn, h0, saturates_toInt]
  · rw [hn, h1, hneg (by omega)]
  · rw [hn, h2, hneg (by omega)]
  · rw [hn, h3, saturates_toInt]

/-- What DEMOD finds after SYNTH: the same carrier, an IQ signal, and a window for each symbol. -/
theorem QuarterCycleSymbols.after_synth {s : State} (h : QuarterCycleSymbols s) :
    AtQuarterCycle (synthBody s).complete ∧ (synthBody s).complete.csr.sigInfo.toNat % 4 = 1 ∧
    (synthBody s).complete.sigCountVal = s.symCountVal * 4 ∧ demodCount (synthBody s).complete = s.symCountVal := by
  have hkind : kindOf (infoWord (kindOf s.csr.symInfo) (schemeOf s.csr.symInfo)) = 1 := by
    rw [kindOf_infoWord, kindOf_eq, h.kind]
  have hcount : (synthBody s).complete.sigCountVal = s.symCountVal * 4 :=
    (synthBody_complete_sigCountVal (by have := h.count; rw [h.synthCount]; omega)).trans h.synthCount
  have hquarter : AtQuarterCycle (synthBody s).complete := ⟨h.nsps, h.carFcw⟩
  refine ⟨hquarter, (kindOf_eq _).symm.trans hkind, hcount, ?windows⟩
  case windows => rw [demodCount, hcount, hquarter.nspsVal, Nat.mul_div_cancel _ (by decide)]

/-- The estimates before saturation are the symbol's own coordinates. -/
theorem QuarterCycleSymbols.estimates_after_synth {s : State} (h : QuarterCycleSymbols s)
    (hgain : s.csr.ctrl.getLsbD 0 = true) {k : Nat} (hk : k < s.symCountVal) :
    estimateI (synthBody s).complete k = (s.symWord (2 * k)).toInt ∧
    estimateQ (synthBody s).complete k = (s.symWord (2 * k + 1)).toInt := by
  obtain ⟨hquarter, -, -, -⟩ := h.after_synth
  obtain ⟨hI, hQ⟩ := hquarter.estimates hgain k
  obtain ⟨h0, h1, h2, h3⟩ := h.synthSample h.kind k
  have hread {m : Nat} (hm : m < s.symCountVal * 4) : (synthBody s).complete.sample m = synthSample s m := by
    rw [← h.synthCount] at hm
    exact synthBody_complete_sample hm (h.sample_inRange hm)
  rw [hI, hQ, hread (by omega), hread (by omega), hread (by omega), hread (by omega), h0, h1, h2, h3]
  constructor <;> omega

theorem QuarterCycleSymbols.demodEntries_after_synth {s : State} (h : QuarterCycleSymbols s)
    (hgain : s.csr.ctrl.getLsbD 0 = true) {j : Nat} (hj : j < (demodEntries (synthBody s).complete).length) :
    (demodEntries (synthBody s).complete)[j] = (s.symWord j).toInt := by
  obtain ⟨-, -, -, hwindows⟩ := h.after_synth
  have hlength : j < 2 * s.symCountVal := by rwa [demodEntries_length, hwindows] at hj
  obtain ⟨k, rfl | rfl⟩ := Nat.even_or_odd' j
  · rw [demodEntries_even, (h.estimates_after_synth hgain (by omega)).1]
  · rw [demodEntries_odd, (h.estimates_after_synth hgain (by omega)).2]

/-- Settles O55: every estimate is its symbol's coordinate, an s32 value, so it is stored as it is. -/
theorem roundTripIsExactAtAQuarterCycle : Obligations.RoundTripIsExactAtAQuarterCycle := by
  intro s hkind hnsps hcarrier hgain hcount hwords
  have h : QuarterCycleSymbols s := ⟨⟨hnsps, hcarrier⟩, hkind, hcount, hwords⟩
  obtain ⟨hquarter, hsigKind, hsigCount, hwindows⟩ := h.after_synth
  have hentries {j : Nat} (hj : j < (demodEntries (synthBody s).complete).length) := h.demodEntries_after_synth hgain hj
  have hlength : (demodEntries (synthBody s).complete).length = 2 * s.symCountVal := by
    rw [demodEntries_length, hwindows]
  have hdemod : exec .demod (synthBody s).complete = .next (demodBody (synthBody s).complete).complete :=
    exec_demod_of_iq hsigKind (by have := h.count; omega) (by rw [hquarter.nspsVal]; decide)
      (by rw [hquarter.nspsVal]; omega) (hwindows.trans_le hcount)
  refine ⟨_, _, h.exec_synth, hdemod, ?count, ?sat, ?words⟩
  case count =>
    rw [complete_csr, demodBody_of_iq hsigKind]
    exact (congrArg (BitVec.ofNat 32) hwindows).trans (by simp [State.symCountVal])
  case sat =>
    have hrange : (demodEntries (synthBody s).complete).any saturates = false := by
      rw [List.any_eq_false]
      intro v hv
      obtain ⟨j, hj, rfl⟩ := List.getElem_of_mem hv
      rw [hentries hj, saturates_toInt]
      exact Bool.false_ne_true
    rw [complete_sat, demodBody_sat_of_inRange hsigKind hrange, complete_sat,
      synthBody_sat_of_inRange fun _ hm => h.sample_inRange hm]
  case words =>
    intro j hj
    have hj' : j < (demodEntries (synthBody s).complete).length := hlength ▸ hj
    rw [demodBody_complete_estWord hsigKind hj', hentries hj', storedWord_of_toInt]

end Sys2Proof.Machine

/-! Proofs about spec/44_noise.md: NOISE with and without noise to add (R221, R222). The samples it stores are first
shown to be the claims' exact values; what it leaves behind then follows from the rule for storing results. -/

namespace Sys2Proof.Machine

open Sys2Proof.Claims

/-! ## NOISE past its checks (R221) -/

theorem noiseCheck_of_legal {s : State} (hsigma : 0 ≤ s.csr.sigma.toInt)
    (hkind : s.csr.sigInfo.toNat % 4 = 1 ∨ s.csr.sigInfo.toNat % 4 = 2) (hcap : s.csr.sigCount.toNat ≤ 65536) :
    noiseCheck s = none := by
  rw [← kindOf_eq] at hkind
  exact (if_neg hsigma.not_gt).trans ((if_neg (by omega)).trans (if_neg hcap.not_gt))

theorem exec_noise_of_legal {s : State} (hsigma : 0 ≤ s.csr.sigma.toInt)
    (hkind : s.csr.sigInfo.toNat % 4 = 1 ∨ s.csr.sigInfo.toNat % 4 = 2) (hcap : s.csr.sigCount.toNat ≤ 65536)
    (hdraws : noiseStuck s s.sigCountVal = false) : exec .noise s = .next (noiseBody s).complete := by
  show execNoise s = _
  rw [execNoise, hdraws, if_neg (by simp), noiseCheck_of_legal hsigma hkind hcap, finishCommand_next]

/-- Without noise nothing is drawn, so the state of the generator does not matter. -/
theorem noiseStuck_of_sigma_eq_zero {s : State} (hsigma : s.csr.sigma = 0#32) (m : Nat) : noiseStuck s m = false := by
  simp [noiseStuck, State.sigmaVal, hsigma]

/-! ## The noisy samples in the terms of the claims (R222) -/

theorem sample_add_noiseval_eq_noisyExact (s : State) (m : Nat) :
    s.sample m + noiseval s.sigmaVal (rngAfter (2 * m + 1) s.csr.nrng) (rngAfter (2 * m + 2) s.csr.nrng) =
      noisyExact s m := rfl

theorem noisySamples_eq_map (s : State) :
    noisySamples s s.sigCountVal 0 s.csr.nrng = (List.range s.csr.sigCount.toNat).map (noisyExact s) := by
  refine List.ext_getElem (by simp [State.sigCountVal]) fun m hm _ => ?_
  rw [noisySamples_getElem, Nat.zero_add, sample_add_noiseval_eq_noisyExact, List.getElem_map, List.getElem_range]

/-! ## What NOISE leaves behind -/

theorem noiseBody_of_sigma_eq_zero {s : State} (hsigma : s.csr.sigma = 0#32) : noiseBody s = s :=
  if_pos (congrArg BitVec.toInt hsigma)

theorem noiseBody_of_sigma_pos {s : State} (hsigma : 0 < s.csr.sigma.toInt) :
    noiseBody s =
      let stored := s.storeResults Config.sigBase ((List.range s.csr.sigCount.toNat).map (noisyExact s))
      { stored with
        csr := { stored.csr with
          nrng := rngAfter (2 * s.csr.sigCount.toNat) s.csr.nrng
          sigInfo := s.csr.sigInfo ||| 0x100#32 } } := by
  rw [← noisySamples_eq_map]
  exact if_neg hsigma.ne'

theorem noiseBody_complete_sigWord {s : State} (hsigma : 0 < s.csr.sigma.toInt) {m : Nat}
    (hm : m < s.csr.sigCount.toNat) : (noiseBody s).complete.sigWord m = clampWord (noisyExact s m) := by
  have hword := storeResults_wordAt s (noiseBody s).complete Config.sigBase
    ((List.range s.csr.sigCount.toNat).map (noisyExact s)) m (by simpa using hm)
    (by rw [noiseBody_of_sigma_pos hsigma]; rfl)
  rw [State.sigWord, hword, List.getElem_map, List.getElem_range, storedWord_eq_clampWord]

theorem noiseBody_status_bit {s : State} (hsigma : 0 < s.csr.sigma.toInt) (i : Nat) :
    (noiseBody s).csr.status.getLsbD i =
      if i = 3 then
        s.csr.status.getLsbD 3 || ((List.range s.csr.sigCount.toNat).map (noisyExact s)).any saturates
      else s.csr.status.getLsbD i := by
  rw [noiseBody_of_sigma_pos hsigma]
  exact storeResults_status_bit s Config.sigBase _ i

theorem noiseBody_sat {s : State} (hsigma : 0 < s.csr.sigma.toInt) :
    (noiseBody s).sat = true ↔ s.sat = true ∨ ∃ m, m < s.csr.sigCount.toNat ∧ OutOfRange (noisyExact s m) := by
  rw [sat_eq, noiseBody_status_bit hsigma, if_pos rfl, Bool.or_eq_true, ← sat_eq]
  simp [saturates_iff_outOfRange]

theorem noiseBody_complete_succeeded {s : State} (hsigma : 0 < s.csr.sigma.toInt) :
    Succeeded (∃ m, m < s.csr.sigCount.toNat ∧ OutOfRange (noisyExact s m)) s (noiseBody s).complete :=
  succeeded_complete (noiseBody_sat hsigma) fun i _ hother => by rw [noiseBody_status_bit hsigma, if_neg hother]

theorem noiseBody_complete_csrsKept {s : State} (hsigma : 0 < s.csr.sigma.toInt) :
    CsrsKept [.status, .nrng, .sigInfo] s (noiseBody s).complete := by
  rw [noiseBody_of_sigma_pos hsigma]
  intro r hr
  cases r with
  | status | nrng | sigInfo => simp at hr
  | _ => rfl

theorem noiseBody_complete_bytesKept {s : State} (hsigma : 0 < s.csr.sigma.toInt) :
    BytesKept (InWords Config.sigBase s.csr.sigCount.toNat) s (noiseBody s).complete := by
  rw [noiseBody_of_sigma_pos hsigma]
  intro a ha
  refine storeResults_byteAt s _ Config.sigBase ((List.range s.csr.sigCount.toNat).map (noisyExact s)) a rfl rfl ?_
  rw [List.length_map, List.length_range]
  unfold InWords at ha
  omega

theorem noiseBody_complete_inputsKept (s : State) : InputsKept s (noiseBody s).complete := by
  obtain ⟨-, hpresetn, hreply, hturns, hdrawIx, hpowerOns⟩ := noiseBody_keeps s
  exact ⟨hpresetn, hreply, hturns, hdrawIx, hpowerOns⟩

theorem complete_csrsKept (s : State) : CsrsKept [.status] s s.complete := by
  intro r hr
  cases r with
  | status => simp at hr
  | _ => rfl

/-! ## The statements -/

/-- Settles O18: a draw goes on from a nonzero generator state, and each stored sample is the clamped exact value. -/
theorem noiseAddsOneDrawPerSample : Obligations.NoiseAddsOneDrawPerSample := by
  intro s hsigma hkind hcap hnrng
  refine ⟨_, exec_noise_of_legal hsigma.le hkind hcap (noiseStuck_of_nrng_ne_zero hnrng _),
    fun m hm => noiseBody_complete_sigWord hsigma hm, ?generator, ?noisy, noiseBody_complete_succeeded hsigma,
    noiseBody_complete_csrsKept hsigma, noiseBody_complete_bytesKept hsigma, noiseBody_complete_inputsKept s⟩
  case generator => rw [complete_csr, noiseBody_of_sigma_pos hsigma]
  case noisy => rw [complete_csr, noiseBody_of_sigma_pos hsigma]

/-- Settles O19: with sigma = 0 the body is the identity, and completion touches STATUS alone. -/
theorem noiseWithZeroSigmaChangesNothing : Obligations.NoiseWithZeroSigmaChangesNothing := by
  intro s hsigma hkind hcap
  have hexec : exec .noise s = .next s.complete := by
    rw [exec_noise_of_legal (by rw [hsigma]; decide) hkind hcap (noiseStuck_of_sigma_eq_zero hsigma _),
      noiseBody_of_sigma_eq_zero hsigma]
  exact ⟨s.complete, hexec, succeeded_complete_of_status_eq rfl, complete_csrsKept s, fun _ _ => rfl,
    rfl, rfl, rfl, rfl, rfl⟩

end Sys2Proof.Machine

/-! Proofs about spec/45_demod.md: DEMOD of an IQ signal (R241, R242, R244) and of a TONE signal (R243). The two arms
are first shown to be the sums the claims state; what DEMOD leaves behind then follows from the rule of storing results. -/

namespace Sys2Proof.Machine

open Sys2Proof.Claims

/-! ## The correlator in the terms of the claims (R242, R244) -/

theorem accI_eq_sum (s : State) (k n : Nat) :
    accI s k n = ∑ j ∈ Finset.range n,
      (s.sigWord (k * s.nspsVal + j)).toInt * cosLut (ncoIndex (k * s.nspsVal + j) s.csr.carFcw) := by
  induction n with
  | zero => rfl
  | succ n ih => rw [accI, ih, Finset.sum_range_succ, cosNco_eq, State.sample]

theorem accQ_eq_sum (s : State) (k n : Nat) :
    accQ s k n = ∑ j ∈ Finset.range n,
      -((s.sigWord (k * s.nspsVal + j)).toInt * sinLut (ncoIndex (k * s.nspsVal + j) s.csr.carFcw)) := by
  induction n with
  | zero => rfl
  | succ n ih => rw [accQ, ih, Finset.sum_range_succ, sinNco_eq, State.sample, sub_eq_add_neg]

theorem estimateI_eq_estIExact (s : State) (k : Nat) : estimateI s k = estIExact s k := by
  rw [estimateI, accI_eq_sum]
  rfl

theorem estimateQ_eq_estQExact (s : State) (k : Nat) : estimateQ s k = estQExact s k := by
  rw [estimateQ, accQ_eq_sum]
  rfl

/-! ## When an estimate saturates (R140, R242) -/

/-- The entries of a window are at an even place and at the odd one after it. -/
theorem exists_lt_two_mul {n : Nat} {p : Nat → Prop} :
    (∃ j, j < 2 * n ∧ p j) ↔ ∃ k, k < n ∧ (p (2 * k) ∨ p (2 * k + 1)) := by
  constructor
  · rintro ⟨j, hj, hp⟩
    obtain ⟨k, rfl | rfl⟩ := Nat.even_or_odd' j
    · exact ⟨k, by omega, .inl hp⟩
    · exact ⟨k, by omega, .inr hp⟩
  · rintro ⟨k, hk, hp | hp⟩
    · exact ⟨2 * k, by omega, hp⟩
    · exact ⟨2 * k + 1, by omega, hp⟩

theorem demodEntries_any_saturates (s : State) :
    (demodEntries s).any saturates = true ↔
      ∃ k, k < demodCount s ∧ (OutOfRange (estIExact s k) ∨ OutOfRange (estQExact s k)) := by
  have hhalf (k : Nat) : (2 * k + 1) / 2 = k := by omega
  simp only [demodEntries, List.any_map, List.any_eq_true, List.mem_range, Function.comp_apply,
    saturates_iff_outOfRange, exists_lt_two_mul]
  simp [Nat.add_mod, hhalf, estimateI_eq_estIExact, estimateQ_eq_estQExact]

/-! ## What DEMOD leaves behind for either kind (R241, R243) -/

theorem demodBody_complete_csrsKept (s : State) :
    CsrsKept [.status, .estCount, .estInfo] s (demodBody s).complete := by
  unfold demodBody
  intro r hr
  cases r with
  | status | estCount | estInfo => simp at hr
  | _ => split <;> rfl

theorem demodBody_complete_inputsKept (s : State) : InputsKept s (demodBody s).complete := by
  obtain ⟨-, hpresetn, hreply, hturns, hdrawIx, hpowerOns⟩ := demodBody_keeps s
  exact ⟨hpresetn, hreply, hturns, hdrawIx, hpowerOns⟩

/-! ## DEMOD of an IQ signal (R241, R242) -/

theorem demodBody_complete_estimates {s : State} (hkind : s.csr.sigInfo.toNat % 4 = 1) {k : Nat}
    (hk : k < demodCount s) :
    (demodBody s).complete.estWord (2 * k) = clampWord (estIExact s k) ∧
    (demodBody s).complete.estWord (2 * k + 1) = clampWord (estQExact s k) := by
  have hentries : 2 * k + 1 < (demodEntries s).length := by rw [demodEntries_length]; omega
  rw [demodBody_complete_estWord hkind (Nat.lt_of_succ_lt hentries), demodBody_complete_estWord hkind hentries,
    demodEntries_even, demodEntries_odd, estimateI_eq_estIExact, estimateQ_eq_estQExact, storedWord_eq_clampWord,
    storedWord_eq_clampWord]
  exact ⟨rfl, rfl⟩

theorem demodBody_complete_estCount {s : State} (hkind : s.csr.sigInfo.toNat % 4 = 1)
    (hwindows : demodCount s ≤ 4096) : (demodBody s).complete.csr.estCount.toNat = demodCount s := by
  rw [complete_csr, demodBody_of_iq hkind]
  exact (BitVec.toNat_ofNat _ 32).trans (Nat.mod_eq_of_lt (by omega))

theorem demodBody_complete_estInfo {s : State} (hkind : s.csr.sigInfo.toNat % 4 = 1) :
    (demodBody s).complete.csr.estInfo =
      1#32 ||| (s.csr.sigInfo &&& 0x70#32) ||| ((s.csr.ctrl &&& 1#32) <<< 8) := by
  rw [complete_csr, demodBody_of_iq hkind]
  exact estInfoValid_eq s

theorem demodBody_sat {s : State} (hkind : s.csr.sigInfo.toNat % 4 = 1) :
    (demodBody s).sat = true ↔
      s.sat = true ∨ ∃ k, k < demodCount s ∧ (OutOfRange (estIExact s k) ∨ OutOfRange (estQExact s k)) := by
  rw [sat_eq, demodBody_status_bit hkind, if_pos rfl, Bool.or_eq_true, demodEntries_any_saturates, sat_eq]

theorem demodBody_complete_succeeded {s : State} (hkind : s.csr.sigInfo.toNat % 4 = 1) :
    Succeeded (∃ k, k < demodCount s ∧ (OutOfRange (estIExact s k) ∨ OutOfRange (estQExact s k))) s
      (demodBody s).complete :=
  succeeded_complete (demodBody_sat hkind) fun i _ hother => by rw [demodBody_status_bit hkind, if_neg hother]

theorem demodBody_complete_bytesKept {s : State} (hkind : s.csr.sigInfo.toNat % 4 = 1) :
    BytesKept (InWords Config.estBase (2 * demodCount s)) s (demodBody s).complete := by
  rw [demodBody_of_iq hkind]
  intro a ha
  refine storeResults_byteAt s _ Config.estBase (demodEntries s) a rfl rfl ?_
  rw [demodEntries_length]
  unfold InWords at ha
  omega

/-- Settles O20: the checks pass, each stored estimate is the clamped exact value, and the rest is the frame of storing
results. -/
theorem demodCorrelatesEachWindow : Obligations.DemodCorrelatesEachWindow := by
  intro s hkind hcap hnsps hmultiple hwindows
  exact ⟨_, exec_demod_of_iq hkind hcap hnsps hmultiple hwindows,
    fun _ hk => demodBody_complete_estimates hkind hk, demodBody_complete_estCount hkind hwindows,
    demodBody_complete_estInfo hkind, demodBody_complete_succeeded hkind, demodBody_complete_csrsKept s,
    demodBody_complete_bytesKept hkind, demodBody_complete_inputsKept s⟩

/-! ## DEMOD of a TONE signal (R243) -/

/-- A TONE signal is checked for E_NODATA only (R241), so no other register can make it fail. -/
theorem exec_demod_of_tone {s : State} (hkind : s.csr.sigInfo.toNat % 4 = 2) :
    exec .demod s = .next (demodBody s).complete := by
  have hcheck : demodCheck s = none := by
    rw [← kindOf_eq] at hkind
    exact (if_neg (by omega)).trans (if_pos hkind)
  show finishCommand s (demodCheck s) demodBody = _
  rw [hcheck, finishCommand_next]

theorem demodBody_of_tone {s : State} (hkind : s.csr.sigInfo.toNat % 4 = 2) :
    demodBody s =
      { s with csr := { s.csr with estCount := 0#32, estInfo := infoWord 2 (schemeOf s.csr.sigInfo) } } :=
  if_pos (by rw [kindOf_eq, hkind])

/-- Settles O21: past the one check, the body writes the two result registers and stores nothing. -/
theorem demodOfFskIsEmpty : Obligations.DemodOfFskIsEmpty := by
  intro s hkind
  have hbody := demodBody_of_tone hkind
  refine ⟨_, exec_demod_of_tone hkind, ?count, ?info, ?succeeded, demodBody_complete_csrsKept s, ?bytes,
    demodBody_complete_inputsKept s⟩
  case count => rw [complete_csr, hbody]
  case info => rw [complete_csr, hbody, ← infoWord_empty]
  case succeeded => exact succeeded_complete_of_status_eq (by rw [hbody])
  case bytes =>
    intro a _
    rw [hbody]
    rfl

end Sys2Proof.Machine

/-! Proofs about spec/46_control.md: NOP (R260), RUN as its four stages (R261), SRESET (R267) and acceptance of a
command (R270). Completion commutes with every body, so the four stages issued as commands of their own end where RUN
ends; and each stage changes only its own registers and words, so the frame of RUN is the four frames put together. -/

namespace Sys2Proof.Machine

open Sys2Proof.Claims

/-! ## A write to CMD (R270, R331) -/

theorem exec_busWr_cmd (s : State) (w : Word) :
    exec (.busWr 0x00014#20 w) s = .next { s.acceptCommand w with reply := some (.writeAck .ok) } :=
  exec_busWr_csr (c := .cmd) rfl rfl rfl

theorem exec_busWr_cmd_of_busy {s : State} (hbusy : s.busy = true) (w : Word) :
    exec (.busWr 0x00014#20 w) s =
      .next { s with csr := { s.csr with status := s.csr.status ||| 0x10#32 }, reply := some (.writeAck .ok) } := by
  have haccept : s.acceptCommand w = s.raiseFlags fCmdOvr := if_pos hbusy
  rw [exec_busWr_cmd, haccept]
  rfl

theorem exec_busWr_cmd_of_idle {s : State} (hidle : s.busy = false) (w : Word) :
    exec (.busWr 0x00014#20 w) s = .next { s.latchCommand w with reply := some (.writeAck .ok) } := by
  have haccept : s.acceptCommand w = s.latchCommand w := if_neg (hidle.trans_ne Bool.false_ne_true)
  rw [exec_busWr_cmd, haccept]

/-- STATUS after acceptance: BUSY set, DONE cleared (R270). -/
theorem latchCommand_status_bit (s : State) (w : Word) {i : Nat} (hi : i < 32) :
    (s.latchCommand w).csr.status.getLsbD i =
      if i = 0 then true else if i = 1 then false else s.csr.status.getLsbD i := by
  rw [latchCommand_csr, setBits_getLsbD, clearBits_getLsbD _ _ _ hi, fBusy_bits, fDone_bits]
  by_cases h0 : i = 0
  · simp [h0]
  by_cases h1 : i = 1
  · simp [h1]
  · simp [h0, h1]

theorem latchCommand_csrsKept (s : State) (w : Word) : CsrsKept [.status, .cmd] s (s.latchCommand w) := by
  intro r hr
  cases r with
  | status | cmd => simp at hr
  | _ => rfl

/-- Settles O30: the two branches of acceptance, on BUSY. -/
theorem cmdWriteIsAcceptedOrDropped : Obligations.CmdWriteIsAcceptedOrDropped := by
  intro s w
  refine ⟨fun hbusy => exec_busWr_cmd_of_busy hbusy w, fun hidle => ?accepted⟩
  case accepted =>
    refine ⟨_, exec_busWr_cmd_of_idle hidle w, rfl, rfl, latchCommand_status_bit s w (by decide),
      latchCommand_status_bit s w (by decide), ?flags, latchCommand_csrsKept s w, rfl, rfl, rfl, rfl, rfl, rfl⟩
    intro i hi hother
    simp only [List.mem_cons, List.not_mem_nil, or_false, not_or] at hother
    obtain ⟨hbusyBit, hdoneBit⟩ := hother
    exact (latchCommand_status_bit s w hi).trans ((if_neg hbusyBit).trans (if_neg hdoneBit))

/-! ## NOP and SRESET (R260, R267) -/

/-- The opcode alone is the one word of an operation that takes no scheme (R115). -/
theorem decodeCommand_of_plainOp_ne {w : Word} {op : Nat} {i : Instr} (hplain : (op, i) ∈ plainOps)
    (hop : w.toNat % 16 = op) (hne : w ≠ BitVec.ofNat 32 op) : decodeCommand w = .illegal := by
  obtain ⟨hmap, hrun⟩ := plainOp_ne hplain
  by_cases hrsv : w.toNat / 128 = 0
  · have hsch : w.toNat / 16 % 8 ≠ 0 := fun hzero => hne <| BitVec.eq_of_toNat_eq <| by
      rw [BitVec.toNat_ofNat]
      omega
    exact decodeCommand_of_strayScheme (hop.trans_ne hmap) (hop.trans_ne hrun) hsch
  · exact decodeCommand_of_rsv hrsv

/-- Settles O9: the body of NOP is the identity, and completion touches STATUS and PEND alone. -/
theorem nopOnlyCompletes : Obligations.NopOnlyCompletes := by
  have hillegal (w : Word) := decodeCommand_of_plainOp_ne (w := w) (op := 0) (i := .nop) (by decide)
  exact ⟨decode_encode .nop, hillegal, fun s => ⟨s.complete, finishCommand_next s none id,
    succeeded_complete_of_status_eq rfl, complete_csrsKept s, fun _ _ => rfl, rfl, rfl, rfl, rfl, rfl⟩⟩

theorem irq_of_csr_reset {s : State} (hcsr : s.csr = Csrs.reset) : s.irq = false := by
  have hidle : s.busy = false := by rw [busy_eq, hcsr]; rfl
  have hseen : s.seenStatus 0x0000C#20 = s.csr.status := if_neg (hidle.trans_ne Bool.false_ne_true)
  rw [State.irq, hseen, hcsr]
  rfl

theorem csrValue_of_csr_reset {s : State} (hcsr : s.csr = Csrs.reset) (c : Csr) :
    s.csrValue c = State.reset.csrValue c := by
  have hreset : s.csr = State.reset.csr := hcsr
  cases c <;> simp only [State.csrValue, hreset]

/-- Settles O24: SRESET replaces the CSR file by the reset values, from which every clause is read off. -/
theorem sresetRestoresEveryCsr : Obligations.SresetRestoresEveryCsr := by
  have hillegal (w : Word) := decodeCommand_of_plainOp_ne (w := w) (op := 15) (i := .sreset) (by decide)
  exact ⟨decode_encode .sreset, hillegal, fun s hbusy => exec_busWr_cmd_of_busy hbusy _,
    fun s => ⟨{ s with csr := Csrs.reset, pend := none }, rfl, csrValue_of_csr_reset rfl, rfl, irq_of_csr_reset rfl,
      rfl, fun _ _ => rfl, rfl, rfl, rfl, rfl, rfl⟩⟩

/-! ## Completion commutes with every body (R335)

Completion changes BUSY, DONE and PEND, and no body reads or writes these. -/

theorem complete_complete (s : State) : s.complete.complete = s.complete := by
  have hstatus : s.complete.complete.csr.status = s.complete.csr.status := by
    apply BitVec.eq_of_getLsbD_eq
    intro i hi
    rw [complete_status_bit _ i hi, complete_status_bit s i hi]
    split_ifs <;> rfl
  exact congrArg s.complete.setStatus hstatus

/-- SAT is neither of the flags that completion writes. -/
theorem storeResults_complete (s : State) (base : Nat) (vs : List Int) :
    s.complete.storeResults base vs = (s.storeResults base vs).complete := by
  have hstatus : (s.complete.storeResults base vs).csr.status = (s.storeResults base vs).complete.csr.status := by
    apply BitVec.eq_of_getLsbD_eq
    intro i hi
    rw [storeResults_status_bit, complete_status_bit (s.storeResults base vs) i hi, storeResults_status_bit,
      complete_status_bit s i hi, complete_status_bit s 3 (by decide)]
    by_cases hsat : i = 3
    · subst hsat; rfl
    · rw [if_neg hsat, if_neg hsat]
  exact congrArg (s.storeResults base vs).complete.setStatus hstatus

theorem synthBody_complete (s : State) : synthBody s.complete = (synthBody s).complete := by
  have hentries : (List.range (synthCount s.complete)).map (synthSample s.complete) =
      (List.range (synthCount s)).map (synthSample s) := rfl
  unfold synthBody
  rw [hentries, storeResults_complete]
  rfl

theorem noiseBody_complete (s : State) : noiseBody s.complete = (noiseBody s).complete := by
  have hsamples : noisySamples s.complete s.complete.sigCountVal 0 s.complete.csr.nrng =
      noisySamples s s.sigCountVal 0 s.csr.nrng := by
    rw [noisySamples_eq_map, noisySamples_eq_map]
    rfl
  have hsigma : s.complete.sigmaVal = s.sigmaVal := rfl
  unfold noiseBody
  rw [hsigma, hsamples, storeResults_complete]
  split <;> rfl

/-- The arms of the correlator recurse on the state, the claims' sums do not: on these the two sides are the same. -/
theorem demodEntries_complete (s : State) : demodEntries s.complete = demodEntries s := by
  simp only [demodEntries, estimateI_eq_estIExact, estimateQ_eq_estQExact]
  rfl

theorem demodBody_complete (s : State) : demodBody s.complete = (demodBody s).complete := by
  have hinfo : s.complete.csr.sigInfo = s.csr.sigInfo := rfl
  unfold demodBody
  rw [hinfo, demodEntries_complete, storeResults_complete]
  split <;> rfl

/-! ## What every stage of a command keeps -/

/-- The command that takes `s` to `t` succeeds, and writes only the CSRs `regs` and the bytes `bytes`. -/
structure Stage (regs : List Csr) (bytes : Nat → Prop) (s t : State) : Prop where
  succeeded : ∃ sats, Succeeded sats s t
  csrsKept : CsrsKept regs s t
  bytesKept : BytesKept bytes s t
  inputsKept : InputsKept s t

theorem succeeded_trans {p q : Prop} {s t u : State} (hst : Succeeded p s t) (htu : Succeeded q t u) :
    Succeeded (p ∨ q) s u := by
  obtain ⟨-, -, -, hsat, hflags⟩ := hst
  obtain ⟨hpend, hbusy, hdone, hsat', hflags'⟩ := htu
  exact ⟨hpend, hbusy, hdone, by rw [hsat', hsat, or_assoc],
    fun i hi hother => (hflags' i hi hother).trans (hflags i hi hother)⟩

section Stages

variable {l m : List Csr} {P Q : Nat → Prop} {s t u : State}

theorem Stage.trans (hst : Stage l P s t) (htu : Stage m Q t u) : Stage (l ++ m) (fun a => P a ∨ Q a) s u where
  succeeded :=
    let ⟨_, hp⟩ := hst.succeeded
    let ⟨_, hq⟩ := htu.succeeded
    ⟨_, succeeded_trans hp hq⟩
  csrsKept c hc := by
    obtain ⟨hl, hm⟩ := not_or.mp (mt List.mem_append.mpr hc)
    exact (htu.csrsKept c hm).trans (hst.csrsKept c hl)
  bytesKept a ha := by
    obtain ⟨hP, hQ⟩ := not_or.mp ha
    exact (htu.bytesKept a hQ).trans (hst.bytesKept a hP)
  inputsKept := by
    obtain ⟨hpresetn, hreply, hturns, hdrawIx, hpowerOns⟩ := hst.inputsKept
    obtain ⟨hpresetn', hreply', hturns', hdrawIx', hpowerOns'⟩ := htu.inputsKept
    exact ⟨hpresetn'.trans hpresetn, hreply'.trans hreply, hturns'.trans hturns, hdrawIx'.trans hdrawIx,
      hpowerOns'.trans hpowerOns⟩

theorem Stage.mono (h : Stage l P s t) (hregs : l ⊆ m) (hbytes : ∀ a, P a → Q a) : Stage m Q s t where
  succeeded := h.succeeded
  csrsKept c hc := h.csrsKept c (mt (@hregs c) hc)
  bytesKept a ha := h.bytesKept a (mt (hbytes a) ha)
  inputsKept := h.inputsKept

/-- A command that succeeds raises no error, so neither error flag changes (R286). -/
theorem Stage.errorFlags (h : Stage l P s t) : t.err = s.err ∧ t.errMulti = s.errMulti := by
  obtain ⟨_, -, -, -, -, hflags⟩ := h.succeeded
  exact ⟨hflags 2 (by decide) (by decide), hflags 6 (by decide) (by decide)⟩

end Stages

theorem stage_map (c : Scheme) (s : State) :
    Stage [.status, .symCount, .symInfo] (InWords Config.symBase (2 * mapCount c s)) s (mapBody c s).complete :=
  ⟨⟨_, mapBody_complete_succeeded c s⟩, mapBody_complete_csrsKept c s, mapBody_complete_bytesKept c s,
    rfl, rfl, rfl, rfl, rfl⟩

theorem stage_synth (s : State) :
    Stage [.status, .sigCount, .sigInfo] (InWords Config.sigBase (synthCount s)) s (synthBody s).complete :=
  ⟨⟨_, synthBody_complete_succeeded s⟩, synthBody_complete_csrsKept s, synthBody_complete_bytesKept s,
    rfl, rfl, rfl, rfl, rfl⟩

theorem stage_complete (s : State) : Stage [.status] Nowhere s s.complete :=
  ⟨⟨_, succeeded_complete_of_status_eq rfl⟩, complete_csrsKept s, fun _ _ => rfl, rfl, rfl, rfl, rfl, rfl⟩

/-- A sigma that NOISE does not refuse is 0 or positive. -/
theorem sigma_cases {s : State} (hsigma : 0 ≤ s.csr.sigma.toInt) : s.csr.sigma = 0#32 ∨ 0 < s.csr.sigma.toInt :=
  hsigma.eq_or_lt.imp (fun h => BitVec.eq_of_toInt_eq h.symm) id

theorem stage_noise {s : State} (hsigma : 0 ≤ s.csr.sigma.toInt) :
    Stage [.status, .nrng, .sigInfo] (InWords Config.sigBase s.sigCountVal) s (noiseBody s).complete := by
  rcases sigma_cases hsigma with hzero | hpos
  · rw [noiseBody_of_sigma_eq_zero hzero]
    exact (stage_complete s).mono (by simp) fun _ => False.elim
  · exact ⟨⟨_, noiseBody_complete_succeeded hpos⟩, noiseBody_complete_csrsKept hpos,
      noiseBody_complete_bytesKept hpos, noiseBody_complete_inputsKept s⟩

theorem stage_demod_of_iq {s : State} (hkind : s.csr.sigInfo.toNat % 4 = 1) :
    Stage [.status, .estCount, .estInfo] (InWords Config.estBase (2 * demodCount s)) s (demodBody s).complete :=
  ⟨⟨_, demodBody_complete_succeeded hkind⟩, demodBody_complete_csrsKept s, demodBody_complete_bytesKept hkind,
    demodBody_complete_inputsKept s⟩

theorem stage_demod_of_tone {s : State} (hkind : s.csr.sigInfo.toNat % 4 = 2) :
    Stage [.status, .estCount, .estInfo] Nowhere s (demodBody s).complete := by
  have hbody := demodBody_of_tone hkind
  refine ⟨⟨_, succeeded_complete_of_status_eq (by rw [hbody])⟩, demodBody_complete_csrsKept s, fun a _ => ?_,
    demodBody_complete_inputsKept s⟩
  rw [hbody]
  rfl

/-! ## The checks of RUN pass (R261) -/

theorem bitsPer_eq_bps (c : Scheme) : bitsPer c = bps c := by cases c <;> rfl

theorem mapCount_eq_div_bitsPer (c : Scheme) (s : State) : mapCount c s = s.csr.nbits.toNat / bitsPer c := by
  rw [bitsPer_eq_bps]
  rfl

theorem infoWord_eq_infoOf (c : Scheme) : infoWord (schemeKind c) (schemeCode c) = infoOf c := by cases c <;> rfl

/-- `RunReady` in the terms of the model's checks, with a name for each of its parts. -/
structure PassesRun (c : Scheme) (s : State) : Prop where
  low : bps c ≤ s.nbitsVal
  multiple : s.nbitsVal % bps c = 0
  nbits : s.nbitsVal ≤ 4096
  nsps : 1 ≤ s.nspsVal
  samples : mapCount c s * s.nspsVal ≤ 65536
  sigma : 0 ≤ s.csr.sigma.toInt
  nrng : s.csr.nrng ≠ 0#32

theorem passesRun_of_ready {c : Scheme} {s : State} (h : RunReady c s) : PassesRun c s := by
  unfold RunReady at h
  rw [bitsPer_eq_bps] at h
  obtain ⟨hlow, hmultiple, hnbits, hnsps, hsamples, hsigma, hnrng⟩ := h
  exact ⟨hlow, hmultiple, hnbits, hnsps, hsamples, hsigma, hnrng⟩

theorem exec_runOf (c : Scheme) (s : State) : exec (runOf c) s = runCommand c s := by cases c <;> rfl

/-! ## The states between the stages -/

/-- The states that MAP, SYNTH, NOISE and DEMOD leave when issued one after another from `s`. -/
def mapped (c : Scheme) (s : State) : State := (mapBody c s).complete
def synthesised (c : Scheme) (s : State) : State := (synthBody (mapped c s)).complete
def noised (c : Scheme) (s : State) : State := (noiseBody (synthesised c s)).complete
def demodulated (c : Scheme) (s : State) : State := (demodBody (noised c s)).complete

/-- The completions in between leave no trace in the last state. -/
theorem demodulated_eq_runBody_complete (c : Scheme) (s : State) : demodulated c s = (runBody c s).complete := by
  simp only [demodulated, noised, synthesised, mapped, runBody, synthBody_complete, noiseBody_complete,
    demodBody_complete, complete_complete]

/-- SIG_INFO between NOISE and DEMOD: KIND and SCHEME are the scheme's whether or not NOISY is set (R42). -/
def noisyInfo (c : Scheme) (s : State) : Word := if s.csr.sigma = 0#32 then infoOf c else infoOf c ||| 0x100#32

theorem noisyInfo_fields (c : Scheme) (s : State) :
    (noisyInfo c s).toNat % 4 = schemeKind c ∧ noisyInfo c s &&& 0x70#32 = infoOf c &&& 0x70#32 := by
  unfold noisyInfo
  split <;> cases c <;> decide

theorem infoOf_fields (c : Scheme) : (infoOf c).toNat % 4 = schemeKind c ∧ infoOf c &&& 0x73#32 = infoOf c := by
  cases c <;> decide

theorem schemeKind_range (c : Scheme) : schemeKind c = 1 ∨ schemeKind c = 2 := by cases c <;> decide

theorem schemeKind_of_ne_fsk {c : Scheme} (hc : c ≠ .fsk) : schemeKind c = 1 := by
  cases c with
  | fsk => exact absurd rfl hc
  | _ => rfl

theorem noiseBody_sigInfo {s : State} (hsigma : 0 ≤ s.csr.sigma.toInt) :
    (noiseBody s).csr.sigInfo = if s.csr.sigma = 0#32 then s.csr.sigInfo else s.csr.sigInfo ||| 0x100#32 := by
  rcases sigma_cases hsigma with hzero | hpos
  · rw [noiseBody_of_sigma_eq_zero hzero, if_pos hzero]
  · rw [noiseBody_of_sigma_pos hpos, if_neg fun hzero => by simp [hzero] at hpos]

theorem noiseBody_nrng {s : State} (hsigma : 0 ≤ s.csr.sigma.toInt) :
    (noiseBody s).csr.nrng =
      if s.csr.sigma = 0#32 then s.csr.nrng else rngAfter (2 * s.csr.sigCount.toNat) s.csr.nrng := by
  rcases sigma_cases hsigma with hzero | hpos
  · rw [noiseBody_of_sigma_eq_zero hzero, if_pos hzero]
  · rw [noiseBody_of_sigma_pos hpos, if_neg fun hzero => by simp [hzero] at hpos]

/-- The words that RUN.s writes (R261); FSK writes no estimate (R243). -/
def InRunWords (c : Scheme) (s : State) (a : Nat) : Prop :=
  InWords Config.symBase (2 * mapCount c s) a ∨ InWords Config.sigBase (mapCount c s * s.nspsVal) a ∨
    (c ≠ .fsk ∧ InWords Config.estBase (2 * mapCount c s) a)

section RunStages

variable {c : Scheme} {s : State}

theorem PassesRun.exec_run (h : PassesRun c s) : exec (runOf c) s = .next (demodulated c s) := by
  have hcheck : runCheck c s = none :=
    (if_neg h.nbits.not_gt).trans ((if_neg (not_or_intro h.low.not_gt (not_not_intro h.multiple))).trans
      ((if_neg (Nat.ne_zero_of_lt h.nsps)).trans ((if_neg h.samples.not_gt).trans (if_neg h.sigma.not_gt))))
  rw [exec_runOf, runCommand, noiseStuck_of_nrng_ne_zero h.nrng, if_neg (by simp), hcheck, finishCommand_next,
    demodulated_eq_runBody_complete]

theorem PassesRun.exec_map (h : PassesRun c s) : exec (mapOf c) s = .next (mapped c s) :=
  exec_mapOf_of_legal h.low h.multiple h.nbits

/-! ### What MAP hands to SYNTH -/

theorem PassesRun.symbols (h : PassesRun c s) : mapCount c s ≤ 4096 := (mapCount_le c s).trans h.nbits

theorem mapped_symInfo (c : Scheme) (s : State) : (mapped c s).csr.symInfo = infoOf c := infoWord_eq_infoOf c

theorem complete_symCountVal (s : State) : s.complete.symCountVal = s.symCountVal := rfl

theorem PassesRun.symCount_mapped (h : PassesRun c s) : (mapped c s).symCountVal = mapCount c s := by
  rw [mapped, complete_symCountVal, symCountVal_mapBody h.nbits]

theorem nsps_mapped (c : Scheme) (s : State) : (mapped c s).nspsVal = s.nspsVal := rfl

theorem PassesRun.synthCount_mapped (h : PassesRun c s) : synthCount (mapped c s) = mapCount c s * s.nspsVal := by
  rw [synthCount, h.symCount_mapped, nsps_mapped]

theorem PassesRun.exec_synth (h : PassesRun c s) : exec .synth (mapped c s) = .next (synthesised c s) := by
  have hkind : (mapped c s).csr.symInfo.toNat % 4 ≠ 0 := by
    have := schemeKind_range c
    rw [mapped_symInfo, (infoOf_fields c).1]
    omega
  exact exec_synth_of_legal hkind h.nsps (h.synthCount_mapped.trans_le h.samples)

/-! ### What SYNTH hands to NOISE -/

theorem synthesised_sigInfo (c : Scheme) (s : State) : (synthesised c s).csr.sigInfo = infoOf c := by
  have hcarry : (synthesised c s).csr.sigInfo = (mapped c s).csr.symInfo &&& 0x73#32 := infoWord_carry _
  rw [hcarry, mapped_symInfo, (infoOf_fields c).2]

theorem PassesRun.sigCount_synthesised (h : PassesRun c s) :
    (synthesised c s).csr.sigCount.toNat = mapCount c s * s.nspsVal := by
  have hcount : (synthesised c s).sigCountVal = synthCount (mapped c s) :=
    synthBody_complete_sigCountVal (h.synthCount_mapped.trans_le h.samples)
  exact hcount.trans h.synthCount_mapped

theorem PassesRun.exec_noise (h : PassesRun c s) : exec .noise (synthesised c s) = .next (noised c s) := by
  have hkind := schemeKind_range c
  rw [← (infoOf_fields c).1, ← synthesised_sigInfo c s] at hkind
  exact exec_noise_of_legal h.sigma hkind (h.sigCount_synthesised.trans_le h.samples)
    (noiseStuck_of_nrng_ne_zero h.nrng _)

/-! ### What NOISE hands to DEMOD -/

theorem PassesRun.stage_noised (h : PassesRun c s) :
    Stage [.status, .nrng, .sigInfo] (InWords Config.sigBase (mapCount c s * s.nspsVal)) (synthesised c s)
      (noised c s) := by
  rw [← h.sigCount_synthesised]
  exact stage_noise h.sigma

theorem PassesRun.noised_sigInfo (h : PassesRun c s) : (noised c s).csr.sigInfo = noisyInfo c s := by
  have hnoise := noiseBody_sigInfo (s := synthesised c s) h.sigma
  rwa [synthesised_sigInfo] at hnoise

theorem PassesRun.noised_nrng (h : PassesRun c s) :
    (noised c s).csr.nrng = if s.csr.sigma = 0#32 then s.csr.nrng
      else rngAfter (2 * (mapCount c s * s.nspsVal)) s.csr.nrng := by
  have hnoise := noiseBody_nrng (s := synthesised c s) h.sigma
  rwa [h.sigCount_synthesised] at hnoise

theorem PassesRun.sigCount_noised (h : PassesRun c s) :
    (noised c s).csr.sigCount.toNat = mapCount c s * s.nspsVal :=
  (congrArg BitVec.toNat (h.stage_noised.csrsKept .sigCount (by decide))).trans h.sigCount_synthesised

theorem PassesRun.nsps_noised (h : PassesRun c s) : (noised c s).nspsVal = s.nspsVal :=
  congrArg BitVec.toNat (h.stage_noised.csrsKept .nsps (by decide))

theorem PassesRun.demodCount_noised (h : PassesRun c s) : demodCount (noised c s) = mapCount c s := by
  rw [demodCount, State.sigCountVal, h.sigCount_noised, h.nsps_noised]
  exact Nat.mul_div_cancel _ h.nsps

theorem PassesRun.kind_noised (h : PassesRun c s) : (noised c s).csr.sigInfo.toNat % 4 = schemeKind c := by
  rw [h.noised_sigInfo, (noisyInfo_fields c s).1]

theorem PassesRun.tone_noised (h : PassesRun c s) (hc : c = .fsk) : (noised c s).csr.sigInfo.toNat % 4 = 2 :=
  h.kind_noised.trans (congrArg schemeKind hc)

theorem PassesRun.iq_noised (h : PassesRun c s) (hc : c ≠ .fsk) : (noised c s).csr.sigInfo.toNat % 4 = 1 :=
  h.kind_noised.trans (schemeKind_of_ne_fsk hc)

theorem PassesRun.exec_demod (h : PassesRun c s) : exec .demod (noised c s) = .next (demodulated c s) := by
  have hcount : (noised c s).sigCountVal = mapCount c s * s.nspsVal := h.sigCount_noised
  rcases schemeKind_range c with hkind | hkind
  · refine exec_demod_of_iq (h.kind_noised.trans hkind) (hcount.trans_le h.samples) ?_ ?_
      (h.demodCount_noised.trans_le h.symbols)
    · rw [h.nsps_noised]; exact h.nsps
    · rw [hcount, h.nsps_noised]; exact Nat.mul_mod_left _ _
  · exact exec_demod_of_tone (h.kind_noised.trans hkind)

/-! ### What DEMOD leaves -/

theorem PassesRun.stage_demodulated (h : PassesRun c s) :
    Stage [.status, .estCount, .estInfo] (fun a => c ≠ .fsk ∧ InWords Config.estBase (2 * mapCount c s) a)
      (noised c s) (demodulated c s) := by
  by_cases hc : c = .fsk
  · exact (stage_demod_of_tone (h.tone_noised hc)).mono (List.Subset.refl _) fun _ => False.elim
  · rw [← h.demodCount_noised]
    exact (stage_demod_of_iq (h.iq_noised hc)).mono (List.Subset.refl _) fun _ ha => ⟨hc, ha⟩

theorem PassesRun.demodulated_estCount (h : PassesRun c s) :
    (demodulated c s).csr.estCount.toNat = if c = .fsk then 0 else mapCount c s := by
  split
  next hc =>
    rw [demodulated, complete_csr, demodBody_of_tone (h.tone_noised hc)]
    rfl
  next hc =>
    have hcount := demodBody_complete_estCount (h.iq_noised hc) (h.demodCount_noised.trans_le h.symbols)
    exact hcount.trans h.demodCount_noised

/-- KIND and SCHEME of EST_INFO are the scheme's; DGAIN is carried for a VALID result only (R241, R243). -/
theorem PassesRun.demodulated_estInfo (h : PassesRun c s) :
    (demodulated c s).csr.estInfo =
      if c = .fsk then infoOf c else infoOf c ||| ((s.csr.ctrl &&& 1#32) <<< 8) := by
  have hscheme : (noised c s).csr.sigInfo &&& 0x70#32 = infoOf c &&& 0x70#32 := by
    rw [h.noised_sigInfo, (noisyInfo_fields c s).2]
  split
  next hc =>
    rw [demodulated, complete_csr, demodBody_of_tone (h.tone_noised hc), infoWord_empty, hscheme, hc]
    rfl
  next hc =>
    have hctrl : (noised c s).csr.ctrl = s.csr.ctrl := h.stage_noised.csrsKept .ctrl (by decide)
    have hinfo : 1#32 ||| (infoOf c &&& 0x70#32) = infoOf c := by
      cases c with
      | fsk => exact absurd rfl hc
      | _ => rfl
    rw [demodulated, demodBody_complete_estInfo (h.iq_noised hc), hscheme, hctrl, hinfo]

/-! ### The four stages together -/

theorem PassesRun.stage_synthesised (h : PassesRun c s) :
    Stage [.status, .sigCount, .sigInfo] (InWords Config.sigBase (mapCount c s * s.nspsVal)) (mapped c s)
      (synthesised c s) := by
  rw [← h.synthCount_mapped]
  exact stage_synth _

theorem PassesRun.stage_run (h : PassesRun c s) :
    Stage [.status, .symCount, .symInfo, .sigCount, .sigInfo, .estCount, .estInfo, .nrng] (InRunWords c s) s
      (demodulated c s) := by
  refine ((stage_map c s).trans (h.stage_synthesised.trans (h.stage_noised.trans h.stage_demodulated))).mono
    (by decide) fun a ha => ?_
  rcases ha with hsym | hsig | hsig | hest
  · exact .inl hsym
  · exact .inr (.inl hsig)
  · exact .inr (.inl hsig)
  · exact .inr (.inr hest)

end RunStages

/-! ## The statements about RUN -/

/-- Settles O22: each stage passes its checks on what the one before left, and the completions in between leave no trace
in the last state. -/
theorem runEqualsItsFourStages : Obligations.RunEqualsItsFourStages := by
  intro c s hready
  have h := passesRun_of_ready hready
  obtain ⟨herr1, hmulti1⟩ := (stage_map c s).errorFlags
  obtain ⟨herr2, hmulti2⟩ := ((stage_map c s).trans h.stage_synthesised).errorFlags
  obtain ⟨herr3, hmulti3⟩ := ((stage_map c s).trans (h.stage_synthesised.trans h.stage_noised)).errorFlags
  obtain ⟨herr4, hmulti4⟩ := h.stage_run.errorFlags
  exact ⟨mapped c s, synthesised c s, noised c s, demodulated c s, h.exec_map, h.exec_synth, h.exec_noise,
    h.exec_demod, h.exec_run, herr1, herr2, herr3, herr4, hmulti1, hmulti2, hmulti3, hmulti4⟩

/-- Settles O23: each result register keeps what its own stage set, and the frame is that of the four stages. -/
theorem runResultsAndFrame : Obligations.RunResultsAndFrame := by
  intro c s hready
  have h := passesRun_of_ready hready
  have hlast := h.stage_demodulated
  have hafterMap := h.stage_synthesised.trans (h.stage_noised.trans hlast)
  obtain ⟨⟨_, hpend, hbusy, hdone, hsat, hflags⟩, hcsrs, hbytes, hinputs⟩ := h.stage_run
  have hsymCount : (demodulated c s).csr.symCount.toNat = mapCount c s :=
    (congrArg BitVec.toNat (hafterMap.csrsKept .symCount (by decide))).trans h.symCount_mapped
  have hsymInfo : (demodulated c s).csr.symInfo = infoOf c :=
    (hafterMap.csrsKept .symInfo (by decide)).trans (mapped_symInfo c s)
  have hsigCount : (demodulated c s).csr.sigCount.toNat = mapCount c s * s.nspsVal :=
    (congrArg BitVec.toNat (hlast.csrsKept .sigCount (by decide))).trans h.sigCount_noised
  have hsigInfo : (demodulated c s).csr.sigInfo = noisyInfo c s :=
    (hlast.csrsKept .sigInfo (by decide)).trans h.noised_sigInfo
  have hnrng := (hlast.csrsKept .nrng (by decide)).trans h.noised_nrng
  rw [← mapCount_eq_div_bitsPer]
  exact ⟨demodulated c s, h.exec_run, hsymCount, hsymInfo, hsigCount, hsigInfo, h.demodulated_estCount,
    h.demodulated_estInfo, hnrng, hpend, hbusy, hdone, hflags, fun hset => hsat.mpr (.inl hset), hcsrs, hbytes,
    hinputs⟩

end Sys2Proof.Machine

/-! Proofs about spec/60_exceptions.md: error entry (R286, R289), the order in which each command checks its
preconditions (R290), and the interrupt output (R293). Each command gets one lemma that ends it in the error its checks
find; what the checks find, one lemma per row of the table, is a chain of their conditions. -/

namespace Sys2Proof.Machine

open Sys2Proof.Claims

/-! ## A command ends in the error its checks find (R286)

The guard of NOISE and RUN against an endless draw comes after their checks, so it stays out of an error. -/

theorem finishCommand_of_error {s : State} {check : Option CmdError} {e : CmdError} (hcheck : check = some e)
    (body : State → State) : finishCommand s check body = .next (s.raiseError e) := by
  rw [hcheck, finishCommand_next]

theorem synth_endsInError {s : State} {e : CmdError} (hcheck : synthCheck s = some e) :
    EndsInError .synth (errorCode e).toNat s := endsInError_of_exec (finishCommand_of_error hcheck synthBody)

theorem noise_endsInError {s : State} {e : CmdError} (hcheck : noiseCheck s = some e) :
    EndsInError .noise (errorCode e).toNat s := by
  apply endsInError_of_exec
  show execNoise s = _
  rw [execNoise, if_neg (by simp [hcheck])]
  exact finishCommand_of_error hcheck noiseBody

theorem demod_endsInError {s : State} {e : CmdError} (hcheck : demodCheck s = some e) :
    EndsInError .demod (errorCode e).toNat s := endsInError_of_exec (finishCommand_of_error hcheck demodBody)

theorem run_endsInError {c : Scheme} {s : State} {e : CmdError} (hcheck : runCheck c s = some e) :
    EndsInError (runOf c) (errorCode e).toNat s := by
  apply endsInError_of_exec
  rw [exec_runOf, runCommand, if_neg (by simp [hcheck])]
  exact finishCommand_of_error hcheck (runBody c)

/-! ## What the checks of SYNTH, NOISE, DEMOD and RUN find (R290) -/

section Checks

variable {s : State} {c : Scheme}

theorem synthCheck_of_empty (hkind : kindOf s.csr.symInfo = 0) : synthCheck s = some .nodata := if_pos hkind

theorem synthCheck_of_nsps_zero (hkind : kindOf s.csr.symInfo ≠ 0) (hnsps : s.nspsVal = 0) :
    synthCheck s = some .param := (if_neg hkind).trans (if_pos hnsps)

theorem synthCheck_of_gt (hkind : kindOf s.csr.symInfo ≠ 0) (hnsps : s.nspsVal ≠ 0)
    (hover : 65536 < s.symCountVal * s.nspsVal) : synthCheck s = some .capacity :=
  (if_neg hkind).trans ((if_neg hnsps).trans (if_pos hover))

theorem noiseCheck_of_sigma_neg (hsigma : s.sigmaVal < 0) : noiseCheck s = some .param := if_pos hsigma

theorem noiseCheck_of_noSignal (hsigma : 0 ≤ s.sigmaVal)
    (hkind : kindOf s.csr.sigInfo = 0 ∨ kindOf s.csr.sigInfo = 3) : noiseCheck s = some .nodata :=
  (if_neg hsigma.not_gt).trans (if_pos hkind)

theorem noiseCheck_of_gt (hsigma : 0 ≤ s.sigmaVal) (hkind : kindOf s.csr.sigInfo = 1 ∨ kindOf s.csr.sigInfo = 2)
    (hover : 65536 < s.sigCountVal) : noiseCheck s = some .capacity :=
  (if_neg hsigma.not_gt).trans ((if_neg (by omega)).trans (if_pos hover))

theorem demodCheck_of_noSignal (hkind : kindOf s.csr.sigInfo = 0 ∨ kindOf s.csr.sigInfo = 3) :
    demodCheck s = some .nodata := if_pos hkind

/-- The checks that DEMOD makes of an IQ signal alone (R241). -/
theorem demodCheck_of_iq (hkind : kindOf s.csr.sigInfo = 1) :
    demodCheck s =
      if 65536 < s.sigCountVal then some .capacity
      else if s.nspsVal = 0 then some .param
      else if s.sigCountVal % s.nspsVal ≠ 0 then some .bitlen
      else if 4096 < s.sigCountVal / s.nspsVal then some .capacity
      else none :=
  (if_neg (by omega)).trans (if_neg (by omega))

theorem runCheck_of_gt (hover : 4096 < s.nbitsVal) : runCheck c s = some .capacity := if_pos hover

theorem runCheck_of_badLength (hcap : s.nbitsVal ≤ 4096) (hlength : s.nbitsVal < bps c ∨ s.nbitsVal % bps c ≠ 0) :
    runCheck c s = some .bitlen := (if_neg hcap.not_gt).trans (if_pos hlength)

/-- The checks that RUN.s makes of the stages after MAP.s (R261). -/
theorem runCheck_of_mappable (hcap : s.nbitsVal ≤ 4096) (hlow : bps c ≤ s.nbitsVal)
    (hmultiple : s.nbitsVal % bps c = 0) :
    runCheck c s =
      if s.nspsVal = 0 then some .param
      else if 65536 < s.nbitsVal / bps c * s.nspsVal then some .capacity
      else if s.sigmaVal < 0 then some .param
      else none :=
  (if_neg hcap.not_gt).trans (if_neg (not_or_intro hlow.not_gt (not_not_intro hmultiple)))

end Checks

/-! ## The statements about errors -/

/-- Settles O7: one law of error entry, at each of the six errors. -/
theorem errorEntryRecordsTheFirstError : Obligations.ErrorEntryRecordsTheFirstError := fun s _ _ =>
  ⟨raiseError_errorTaken s .illegalCmd, raiseError_errorTaken s .scheme, raiseError_errorTaken s .bitlen,
    raiseError_errorTaken s .param, raiseError_errorTaken s .capacity, raiseError_errorTaken s .nodata⟩

/-- Settles O8: for every command, what its checks find under the conditions of each row. -/
theorem checksFailInOrder : Obligations.ChecksFailInOrder := by
  intro s
  simp only [← kindOf_eq, bitsPer_eq_bps]
  refine ⟨fun hzero => endsInError_of_exec (exec_genbits_of_zero hzero),
    fun hover => endsInError_of_exec (exec_genbits_of_gt hover), ?map,
    fun hkind => synth_endsInError (synthCheck_of_empty hkind),
    fun hkind hnsps => synth_endsInError (synthCheck_of_nsps_zero hkind hnsps),
    fun hkind hnsps hover => synth_endsInError (synthCheck_of_gt hkind hnsps hover),
    fun hsigma => noise_endsInError (noiseCheck_of_sigma_neg hsigma),
    fun hsigma hkind => noise_endsInError (noiseCheck_of_noSignal hsigma hkind),
    fun hsigma hkind hover => noise_endsInError (noiseCheck_of_gt hsigma hkind hover),
    fun hkind => demod_endsInError (demodCheck_of_noSignal hkind),
    ?signal, ?window, ?multiple, ?estimates, ?run⟩
  case map =>
    exact fun c => ⟨fun hover => endsInError_of_exec (exec_mapOf_of_gt c hover),
      fun hcap hlength => endsInError_of_exec (exec_mapOf_of_badLength hcap hlength)⟩
  case signal =>
    exact fun hkind hover => demod_endsInError ((demodCheck_of_iq hkind).trans (if_pos hover))
  case window =>
    exact fun hkind hcap hnsps => demod_endsInError
      ((demodCheck_of_iq hkind).trans ((if_neg hcap.not_gt).trans (if_pos hnsps)))
  case multiple =>
    exact fun hkind hcap hnsps hrest => demod_endsInError
      ((demodCheck_of_iq hkind).trans ((if_neg hcap.not_gt).trans ((if_neg hnsps).trans (if_pos hrest))))
  case estimates =>
    exact fun hkind hcap hnsps hmultiple hover => demod_endsInError
      ((demodCheck_of_iq hkind).trans ((if_neg hcap.not_gt).trans ((if_neg hnsps).trans
        ((if_neg (not_not_intro hmultiple)).trans (if_pos hover)))))
  case run =>
    refine fun c => ⟨fun hover => run_endsInError (runCheck_of_gt hover),
      fun hcap hlength => run_endsInError (runCheck_of_badLength hcap hlength), fun hcap hlow hmultiple => ?_⟩
    have hstages := runCheck_of_mappable hcap hlow hmultiple
    exact ⟨fun hnsps => run_endsInError (hstages.trans (if_pos hnsps)),
      fun hnsps hover => run_endsInError (hstages.trans ((if_neg hnsps).trans (if_pos hover))),
      fun hnsps hsamples hsigma => run_endsInError
        (hstages.trans ((if_neg hnsps).trans ((if_neg hsamples.not_gt).trans (if_pos hsigma))))⟩

/-! ## The interrupt output (R293) -/

theorem seenStatus_of_idle {s : State} (hidle : s.busy = false) (a : BusAddr) : s.seenStatus a = s.csr.status :=
  if_neg (hidle.trans_ne Bool.false_ne_true)

/-- Settles O35: while BUSY = 0 the outside sees STATUS itself, and the equation of R293 is the disjunction. -/
theorem irqIsTheEnabledFlags : Obligations.IrqIsTheEnabledFlags := by
  intro s hidle
  rw [State.irq, seenStatus_of_idle hidle]
  simp [irqOf, done_eq, err_eq, sat_eq, or_assoc]

end Sys2Proof.Machine

/-! Proofs about spec/70_reset_and_hazards.md: what the host can see and change while a command is pending (R331 to
R334), that a pending command reads what it was accepted with and completes (R335 to R337), and the reset input and
power (R320 to R324). While BUSY = 1 a bus transaction does nothing but replace the CSR file by one that agrees with it
on all that a command reads; the statements about runs are inductions over that one fact. -/

namespace Sys2Proof.Machine

open Sys2Proof.Claims

/-! ## The bus while BUSY = 1: reads (R333) -/

theorem exec_busRd_csr (c : Csr) (s : State) :
    exec (.busRd (csrAddr c)) s = .next { s with reply := some (.readData .ok (s.seenCsr (csrAddr c) c)) } := by
  rw [exec_busRd, memRead_csr (aligned_csrAddr c) (regionOf_csrAddr c) (csrAt_csrAddr c)]

/-- The registers that no command writes are exact at any time. -/
theorem exec_busRd_csr_exact {c : Csr} (hseen : hiddenWhileBusy c = false) (hstatus : c ≠ .status) (s : State) :
    exec (.busRd (csrAddr c)) s = .next { s with reply := some (.readData .ok (s.csrValue c)) } := by
  rw [exec_busRd_csr, State.seenCsr, hseen, Bool.and_false, if_neg Bool.false_ne_true, if_neg hstatus]

theorem busyFreeMask_bits {i : Nat} (hi : i < 32) (hother : i ∉ [2, 3, 6]) : busyFreeMask.getLsbD i = false := by
  revert i
  decide

/-- STATUS as the host sees it, outside ERR, SAT and ERR_MULTI. -/
theorem seenStatus_bit (s : State) (a : BusAddr) {i : Nat} (hi : i < 32) (hother : i ∉ [2, 3, 6]) :
    (s.seenStatus a).getLsbD i = s.csr.status.getLsbD i := by
  unfold State.seenStatus
  split
  · rw [setBits_getLsbD, clearBits_getLsbD _ _ _ hi, BitVec.getLsbD_and, busyFreeMask_bits hi hother]
    simp
  · rfl

/-- The mapped addresses (20_memory.md R81). -/
theorem mapped_cases {n : Nat} (h : ¬ Unmapped n) :
    n < 0x100 ∨ (HostWritableBuffer n ∨ HostReadOnlyBuffer n) := by
  unfold Unmapped at h
  unfold HostWritableBuffer HostReadOnlyBuffer
  omega

/-- A read of a mapped word is answered OK (R84), whatever BUSY is. -/
theorem memRead_mapped (s : State) {a : BusAddr} (hmod : a.toNat % 4 = 0) (hmapped : ¬ Unmapped a.toNat) :
    ∃ v, s.memRead a = .readData .ok v := by
  have ha := aligned_of_mod hmod
  rcases mapped_cases hmapped with hwindow | hbuffer
  · cases hc : csrAt a.toNat with
    | some c => exact ⟨_, memRead_csr ha (regionOf_csrWindow hwindow) hc⟩
    | none => exact ⟨0#32, by simp [State.memRead, ha, regionOf_csrWindow hwindow, hc]⟩
  · exact ⟨_, memRead_buffer ha (regionOf_buffer hbuffer)⟩

/-- Settles O26. Reserved offsets, and whether a read is answered, do not depend on BUSY. -/
theorem busReadWhileBusy : Obligations.BusReadWhileBusy := by
  intro s _
  refine ⟨?exact, ?reserved, ?status, ?mapped⟩
  case exact =>
    have register {c : Csr} (hseen : hiddenWhileBusy c = false) (hstatus : c ≠ .status) :=
      exec_busRd_csr_exact hseen hstatus s
    simp only [List.forall_mem_cons]
    exact ⟨register (c := .id) rfl nofun, register (c := .caps) rfl nofun, register (c := .ctrl) rfl nofun,
      register (c := .irqEn) rfl nofun, register (c := .cmd) rfl nofun, register (c := .nbits) rfl nofun,
      register (c := .nsps) rfl nofun, register (c := .amp) rfl nofun, register (c := .carFcw) rfl nofun,
      register (c := .devFcw) rfl nofun, register (c := .sigma) rfl nofun, nofun⟩
  case reserved =>
    intro a hmod hlow hhigh
    rw [exec_busRd, memRead_reserved (aligned_of_mod hmod) hlow hhigh]
  case status =>
    have hseen : s.seenCsr 0x0000C#20 .status = s.seenStatus 0x0000C#20 := by simp [State.seenCsr, hiddenWhileBusy]
    exact ⟨s.seenStatus 0x0000C#20, hseen ▸ exec_busRd_csr .status s,
      fun i hi hother => seenStatus_bit s _ hi hother⟩
  case mapped =>
    intro a hmod hmapped
    obtain ⟨v, hread⟩ := memRead_mapped s hmod hmapped
    exact ⟨v, by rw [exec_busRd, hread]⟩

/-! ## The bus while BUSY = 1: dropped writes (R332) -/

theorem writeIdle_of_busy {s : State} (hbusy : s.busy = true) (f : State → State) :
    s.writeIdle f = s.raiseFlags fWrBusy := if_pos hbusy

/-- The registers of R332. -/
def droppedWhileBusy : List Csr :=
  [.ctrl, .nbits, .nsps, .amp, .carFcw, .devFcw, .sigma, .brng, .nrng, .sigCount, .sigInfo]

theorem csrAt_droppedWhileBusy {off : Nat}
    (h : off ∈ [0x08, 0x20, 0x24, 0x28, 0x2C, 0x30, 0x34, 0x38, 0x3C, 0x48, 0x4C]) :
    off < 0x100 ∧ off % 4 = 0 ∧ ∃ c, csrAt off = some c ∧ c ∈ droppedWhileBusy := by
  simp only [List.mem_cons, List.not_mem_nil, or_false] at h
  rcases h with rfl | rfl | rfl | rfl | rfl | rfl | rfl | rfl | rfl | rfl | rfl <;>
    exact ⟨by decide, by decide, _, rfl, by decide⟩

theorem writeCsr_dropped {s : State} (hbusy : s.busy = true) {c : Csr} (hc : c ∈ droppedWhileBusy) (v : Word) :
    s.writeCsr c v = s.raiseFlags fWrBusy := by
  cases c with
  | ctrl | nbits | nsps | amp | carFcw | devFcw | sigma | brng | nrng | sigCount | sigInfo =>
    rw [State.writeCsr]
    exact writeIdle_of_busy hbusy _
  | _ => simp [droppedWhileBusy] at hc

/-- Settles O29: the write rule of each target is one that waits for BUSY = 0. -/
theorem writeWhileBusyIsDropped : Obligations.WriteWhileBusyIsDropped := by
  intro s v a hbusy htarget
  have hdrop : aligned a = true ∧ regionOf a ≠ .unmapped ∧ s.memWrite a v = s.raiseFlags fWrBusy := by
    rcases htarget with hcsr | ⟨hmod, hbuffer⟩
    · obtain ⟨hwindow, hmod, c, hc, hlisted⟩ := csrAt_droppedWhileBusy hcsr
      have ha := aligned_of_mod hmod
      have hr := regionOf_csrWindow hwindow
      exact ⟨ha, by simp [hr], by rw [memWrite_csr ha hr hc, writeCsr_dropped hbusy hlisted]⟩
    · have ha := aligned_of_mod hmod
      rcases regionOf_writableBuffer hbuffer with hr | hr <;>
        exact ⟨ha, by simp [hr], by simp [State.memWrite, ha, hr, writeIdle_of_busy hbusy]⟩
  obtain ⟨ha, hr, hwrite⟩ := hdrop
  rw [exec_busWr_mapped ha hr, hwrite]
  rfl

/-! ## What no transaction changes while BUSY = 1 (R336) -/

/-- The command pending in `s` is pending in `t` too, and reads there what it reads in `s`. -/
structure HeldWhileBusy (s t : State) : Prop where
  busy : t.busy = true
  pend : t.pend = s.pend
  presetn : t.presetn = s.presetn
  mem : t.mem = s.mem
  powerOns : t.powerOns = s.powerOns
  csrsKept : CsrsKept [.status, .irqEn, .errCode, .errCmd] s t

section Held

variable {s t u : State}

theorem HeldWhileBusy.refl (hbusy : s.busy = true) : HeldWhileBusy s s :=
  ⟨hbusy, rfl, rfl, rfl, rfl, fun _ _ => rfl⟩

theorem HeldWhileBusy.trans (hst : HeldWhileBusy s t) (htu : HeldWhileBusy t u) : HeldWhileBusy s u where
  busy := htu.busy
  pend := htu.pend.trans hst.pend
  presetn := htu.presetn.trans hst.presetn
  mem := htu.mem.trans hst.mem
  powerOns := htu.powerOns.trans hst.powerOns
  csrsKept c hc := (htu.csrsKept c hc).trans (hst.csrsKept c hc)

theorem HeldWhileBusy.bytesKept (h : HeldWhileBusy s t) : BytesKept Nowhere s t :=
  fun a _ => byteAt_congr s t a (by rw [h.mem]) h.powerOns

/-- The input list, the step counter and the bus answer are no part of what a command reads. -/
theorem HeldWhileBusy.setInputs (h : HeldWhileBusy s t) (turns : List Turn) (drawIx : Nat) (reply : Option Reply) :
    HeldWhileBusy s { t with turns := turns, drawIx := drawIx, reply := reply } where
  __ := h
  csrsKept c hc := (by cases c <;> rfl : State.csrValue _ c = t.csrValue c).trans (h.csrsKept c hc)

/-- Replacing the CSR file by one that differs from it at most in what a write to STATUS or to IRQ_EN changes
(10_state.md R26, R27). -/
theorem heldWhileBusy_setCsr {status irqEn errCode errCmd : Word} (hbusy : status.getLsbD 0 = true) :
    HeldWhileBusy s (s.setCsr { s.csr with
      status := status, irqEn := irqEn, errCode := errCode, errCmd := errCmd }) where
  busy := hbusy
  pend := rfl
  presetn := rfl
  mem := rfl
  powerOns := rfl
  csrsKept c hc := by
    cases c with
    | status | irqEn | errCode | errCmd => simp at hc
    | _ => rfl

/-- What a write may come to while BUSY = 1: the CSR file replaced, with nothing lost that a command reads. -/
def OnlySetsCsr (s t : State) : Prop := ∃ c, t = s.setCsr c ∧ HeldWhileBusy s (s.setCsr c)

theorem onlySetsCsr_refl (hbusy : s.busy = true) : OnlySetsCsr s s := ⟨s.csr, rfl, .refl hbusy⟩

theorem onlySetsCsr_raiseFlags (hbusy : s.busy = true) (k : Word) : OnlySetsCsr s (s.raiseFlags k) :=
  ⟨_, rfl, heldWhileBusy_setCsr (by rw [setBits_getLsbD, ← busy_eq, hbusy, Bool.true_or])⟩

theorem writeCsr_of_busy (hbusy : s.busy = true) (c : Csr) (v : Word) : OnlySetsCsr s (s.writeCsr c v) := by
  cases c with
  | id | caps | errCode | errCmd | symCount | symInfo | estCount | estInfo => exact onlySetsCsr_refl hbusy
  | ctrl | nbits | nsps | amp | carFcw | devFcw | sigma | brng | nrng | sigCount | sigInfo =>
    rw [writeCsr_dropped hbusy (by decide)]
    exact onlySetsCsr_raiseFlags hbusy fWrBusy
  | status => exact ⟨_, rfl, heldWhileBusy_setCsr ((writeStatus_busy s v).trans hbusy)⟩
  | irqEn => exact ⟨_, rfl, heldWhileBusy_setCsr hbusy⟩
  | cmd =>
    have hdropped : s.writeCsr .cmd v = s.raiseFlags fCmdOvr := if_pos hbusy
    rw [hdropped]
    exact onlySetsCsr_raiseFlags hbusy fCmdOvr

theorem memWrite_of_busy (hbusy : s.busy = true) (a : BusAddr) (d : Word) : OnlySetsCsr s (s.memWrite a d) := by
  rcases memWrite_cases s a d with heq | ⟨c, heq⟩ | ⟨_, heq⟩ <;> rw [heq]
  · exact onlySetsCsr_refl hbusy
  · exact writeCsr_of_busy hbusy c d
  · rw [writeIdle_of_busy hbusy]
    exact onlySetsCsr_raiseFlags hbusy fWrBusy

/-- A transaction while BUSY = 1, the read and the write, and the inputs still to come after it. -/
theorem exec_transaction_of_busy (hbusy : s.busy = true) (b : BusTuple) :
    ∃ t, exec (decodeTransaction b) s = .next t ∧ t.turns = s.turns ∧ HeldWhileBusy s t := by
  cases hwrite : b.getLsbD 52
  case false =>
    rw [decodeTransaction_of_read hwrite, exec_busRd]
    exact ⟨_, rfl, rfl, (HeldWhileBusy.refl hbusy).setInputs _ _ _⟩
  case true =>
    rw [decodeTransaction_of_write hwrite]
    obtain ⟨c, hmem, hheld⟩ := memWrite_of_busy hbusy (b.extractLsb' 32 20) (b.extractLsb' 0 32)
    have hexec (a : BusAddr) (d : Word) : exec (.busWr a d) s =
        .next { s.memWrite a d with reply := some (.writeAck (if writeAnswered a then .ok else .err)) } := rfl
    rw [hexec, hmem]
    exact ⟨_, rfl, rfl, hheld.setInputs _ _ _⟩

theorem step_bus_of_busy {b : BusTuple} {rest : List Turn} (hbusy : s.busy = true) (hpresetn : s.presetn = true)
    (hturns : s.turns = .bus b :: rest) : ∃ t, step s = .next t ∧ t.turns = rest ∧ HeldWhileBusy s t := by
  obtain ⟨_, hhost, _⟩ := stepRunsTheDecodedInstruction
  rw [hhost s b rest _ hturns hpresetn rfl]
  obtain ⟨t, hexec, hrest, hheld⟩ :=
    exec_transaction_of_busy (s := { s with turns := rest, drawIx := s.drawIx + 1 }) (by exact hbusy) b
  exact ⟨t, hexec, hrest, ((HeldWhileBusy.refl hbusy).setInputs rest _ s.reply).trans hheld⟩

end Held

/-! ## Runs -/

section Runs

variable {M : Host.Core} {n : Nat} {s t u : M.State}

theorem run_succ_of_step (hstep : M.step s = .next t) (n : Nat) : M.run (n + 1) s = M.run n t := by
  rw [Host.Core.run, hstep]

/-- A run of one step more goes on after its first step. -/
theorem step_of_run_succ (hrun : M.run (n + 1) s = .next u) : ∃ t, M.step s = .next t ∧ M.run n t = .next u := by
  cases hstep : M.step s with
  | next t => exact ⟨t, rfl, run_succ_of_step hstep n ▸ hrun⟩
  | fault r | refused r =>
    rw [Host.Core.run, hstep] at hrun
    cases hrun

/-- The state that a run has reached takes the run's next step. -/
theorem run_succ_of_run (hrun : M.run n s = .next t) (hstep : M.step t = .next u) : M.run (n + 1) s = .next u := by
  induction n generalizing s with
  | zero =>
    obtain rfl : s = t := Host.Outcome.next.inj hrun
    exact run_succ_of_step hstep 0
  | succ n ih =>
    obtain ⟨r, hfirst, hrest⟩ := step_of_run_succ hrun
    exact (run_succ_of_step hfirst (n + 1)).trans (ih hrest)

end Runs

/-- The invariant along a run, each step of which keeps it. -/
theorem Inv.run {n : Nat} {s t : State} (h : Inv s) (hrun : Sys2Proof.core.run n s = .next t) : Inv t := by
  induction n generalizing s with
  | zero =>
    obtain rfl : s = t := Host.Outcome.next.inj hrun
    exact h
  | succ n ih =>
    obtain ⟨r, hfirst, hrest⟩ := step_of_run_succ hrun
    exact ih (everyStepKeepsTheInvariant s r h hfirst) hrest

/-- The transactions of a list, one after another, from a state with a command pending. -/
theorem run_transactions_of_busy {s : State} {l : List BusTuple} {rest : List Turn} (hbusy : s.busy = true)
    (hpresetn : s.presetn = true) (hturns : s.turns = l.map .bus ++ rest) :
    ∃ t : State, Sys2Proof.core.run l.length s = .next t ∧ t.turns = rest ∧ HeldWhileBusy s t := by
  induction l generalizing s with
  | nil => exact ⟨s, rfl, hturns, .refl hbusy⟩
  | cons b l ih =>
    obtain ⟨r, hstep, hrest, hfirst⟩ := step_bus_of_busy hbusy hpresetn hturns
    obtain ⟨t, hrun, hend, hothers⟩ := ih hfirst.busy (hfirst.presetn.trans hpresetn) hrest
    exact ⟨t, (run_succ_of_step hstep l.length).trans hrun, hend, hfirst.trans hothers⟩

/-- Settles O51, by the transactions of the list, each of which holds all that a command reads. -/
theorem configurationIsStableWhileBusy : Obligations.ConfigurationIsStableWhileBusy := by
  intro s l rest hbusy hpresetn hturns
  obtain ⟨t, hrun, hrest, hheld⟩ := run_transactions_of_busy hbusy hpresetn hturns
  exact ⟨t, hrun, hheld.busy, hheld.pend, hheld.presetn.trans hpresetn, hrest, hheld.csrsKept, hheld.bytesKept⟩

/-! ## A pending command completes (R335, R337) -/

theorem busy_of_csr_reset {s : State} (hcsr : s.csr = Csrs.reset) : s.busy = false := by rw [busy_eq, hcsr]; rfl

theorem done_of_csr_reset {s : State} (hcsr : s.csr = Csrs.reset) : s.done = false := by rw [done_eq, hcsr]; rfl

/-- The command has ended; `silent` is the excuse for leaving DONE at 0. -/
def Ended (silent : Prop) (t : State) : Prop := t.busy = false ∧ t.pend = none ∧ (t.done = true ∨ silent)

theorem raiseError_ended (p : Prop) (s : State) (e : CmdError) : Ended p (s.raiseError e) :=
  ⟨raiseError_busy s e, rfl, .inl (raiseError_status_bit s e 1 (by decide))⟩

theorem complete_ended (p : Prop) (s : State) : Ended p s.complete :=
  ⟨complete_busy s, rfl, .inl (complete_status_bit s 1 (by decide))⟩

/-- Of the commands, SRESET alone does not report its end (R267). -/
theorem exec_command_ended {i : Instr} {s t : State} (hr : ∀ a, i ≠ .busRd a) (hw : ∀ a d, i ≠ .busWr a d)
    (hexec : exec i s = .next t) : Ended (i = .sreset) t := by
  rcases exec_command_cases hr hw hexec with ⟨e, rfl⟩ | rfl | ⟨_, rfl⟩ | ⟨_, _, rfl⟩ | ⟨_, rfl⟩ | ⟨_, rfl⟩ |
    ⟨_, rfl⟩ | ⟨_, _, rfl⟩ | ⟨hi, rfl⟩
  case inl => exact raiseError_ended _ s e
  case inr.inr.inr.inr.inr.inr.inr.inr => exact ⟨busy_of_csr_reset rfl, rfl, .inr hi⟩
  all_goals exact complete_ended _ _

/-- The engine's step on a pending word, whether the word is run or rejected. -/
theorem engineStep_ended {s t : State} {w : Word} (hbusy : s.busy = true) (hpend : s.pend = some w)
    (hstep : engineStep s = .next t) : Ended (w = 0x0000000F#32) t := by
  rcases engineStep_cases hstep with ⟨hidle, _⟩ | ⟨_, v, i, hv, hdecode, hexec⟩ | ⟨_, _, _, _, rfl | rfl⟩
  · exact absurd (hbusy.symm.trans hidle) (by decide)
  · obtain rfl : w = v := Option.some.inj (hpend.symm.trans hv)
    have hencode : encode i = .command w := encode_of_decodeCommand hdecode
    have hsreset (hi : i = .sreset) : w = 0x0000000F#32 := by
      subst hi
      exact (Packet.command.inj hencode).symm
    obtain ⟨hidle, hempty, hdone⟩ := exec_command_ended (fun a hi => Packet.noConfusion (hi ▸ hencode))
      (fun a d hi => Packet.noConfusion (hi ▸ hencode)) hexec
    exact ⟨hidle, hempty, hdone.imp id hsreset⟩
  · exact raiseError_ended _ s .illegalCmd
  · exact raiseError_ended _ s .scheme

/-- A command is pending only while the reset input is high (R320). -/
theorem Inv.presetn_of_busy {s : State} (h : Inv s) (hbusy : s.busy = true) : s.presetn = true := by
  by_contra hlow
  exact absurd (hbusy.symm.trans (h.resetIdle (by simpa using hlow))) (by decide)

/-- Settles O52: the transactions leave the command pending and the invariant true, so the engine's step goes on, and it
ends the command. -/
theorem acceptedCommandCompletes : Obligations.AcceptedCommandCompletes := by
  intro s l h hbusy hturns
  obtain ⟨w, hpend⟩ := Option.isSome_iff_exists.mp (h.busyHasCommand.symm.trans hbusy)
  obtain ⟨t, hrun, hnone, hheld⟩ :=
    run_transactions_of_busy (rest := []) hbusy (h.presetn_of_busy hbusy) (hturns.trans (List.append_nil _).symm)
  have hturn : step t = engineStep t.beginStep := step_of_engineNext (.inl hnone)
  obtain ⟨u, hengine⟩ := (h.run hrun).beginStep.engineStep_goesOn
  obtain ⟨hidle, hempty, hdone⟩ :=
    engineStep_ended (s := t.beginStep) hheld.busy (hheld.pend.trans hpend) hengine
  exact ⟨u, run_succ_of_run hrun (hturn.trans hengine), hidle, hempty,
    hdone.imp id fun hword => hpend.trans (congrArg some hword)⟩

/-! ## The reset input and power (R320 to R324) -/

theorem step_of_powerCycle {s : State} {rest : List Turn} (hturns : s.turns = .powerCycle :: rest) :
    step s = .next s.beginStep.cyclePower := by
  unfold step
  rw [hturns]

theorem step_of_resetAssert {s : State} {rest : List Turn} (hturns : s.turns = .resetAssert :: rest) :
    step s = .next s.beginStep.assertReset := by
  unfold step
  rw [hturns]

theorem step_of_resetRelease {s : State} {rest : List Turn} (hturns : s.turns = .resetRelease :: rest) :
    step s = .next s.beginStep.releaseReset := by
  unfold step
  rw [hturns]

/-- Settles O36: the values are those of R321, and the interrupt output follows from them. -/
theorem resetLeavesTheResetValues : Obligations.ResetLeavesTheResetValues :=
  ⟨rfl, rfl, rfl, irq_of_csr_reset rfl⟩

/-- Settles O38: with the reset input low the host's step runs no instruction. -/
theorem noAnswerWhileResetIsAsserted : Obligations.NoAnswerWhileResetIsAsserted := by
  intro s t rest hlow hturns
  rw [step_of_bus hturns, beginStep_of_turns_cons hturns, hostStep, if_neg (by simp [hlow])]

/-- Settles O39: the power cycle sets every field but the three that the model counts and reads its inputs by. -/
theorem powerCycleLosesAllState : Obligations.PowerCycleLosesAllState := by
  intro s rest hturns
  rw [step_of_powerCycle hturns, beginStep_of_turns_cons hturns]
  rfl

/-- The bytes of the words that a footprint names (R322). -/
def Footprint.Holds (f : Footprint) (a : Nat) : Prop :=
  InWords Config.bitBase f.bit a ∨ InWords Config.symBase f.sym a ∨ InWords Config.estBase f.est a ∨
    InWords Config.sigBase f.sig a

theorem putWords_byteAt_of_not_inWords (s : State) {base a : Nat} {ws : List Word}
    (h : ¬ InWords base ws.length a) : (s.putWords base ws).byteAt a = s.byteAt a :=
  putWords_byteAt_outside s _ base ws a rfl rfl (by unfold InWords at h; omega)

/-- Abandoning a command touches no byte outside its footprint: one block of words per buffer. -/
theorem abandonPending_bytesKept (s : State) : BytesKept s.pendingFootprint.Holds s s.abandonPending := by
  intro a houtside
  simp only [Footprint.Holds, not_or] at houtside
  obtain ⟨hbit, hsym, hest, hsig⟩ := houtside
  unfold State.abandonPending
  rw [putWords_byteAt_of_not_inWords _ (by simpa using hsig), putWords_byteAt_of_not_inWords _ (by simpa using hest),
    putWords_byteAt_of_not_inWords _ (by simpa using hsym), putWords_byteAt_of_not_inWords _ (by simpa using hbit)]

theorem assertReset_bytesKept (s : State) : BytesKept s.pendingFootprint.Holds s s.assertReset :=
  fun a houtside => abandonPending_bytesKept s a houtside

/-- The footprint depends on PEND and the CSRs alone. -/
theorem pendingFootprint_beginStep (s : State) : s.beginStep.pendingFootprint = s.pendingFootprint := rfl

/-- While BUSY = 0 no command is abandoned. -/
theorem not_holds_of_idle {s : State} (hidle : s.busy = false) (a : Nat) : ¬ s.pendingFootprint.Holds a := by
  have hnone : s.pendingFootprint = ⟨0, 0, 0, 0⟩ := if_neg (hidle.trans_ne Bool.false_ne_true)
  simp only [hnone, Footprint.Holds, InWords]
  omega

/-- Settles O37: the CSRs' clauses are those of the reset values, and the bytes kept while BUSY = 0 are those outside an
empty footprint. -/
theorem hardwareReset : Obligations.HardwareReset := by
  refine ⟨fun s rest hturns => ?assert, fun s rest hturns => ?release⟩
  case assert =>
    have hkept : BytesKept s.pendingFootprint.Holds s s.beginStep.assertReset :=
      pendingFootprint_beginStep s ▸ assertReset_bytesKept s.beginStep
    exact ⟨_, step_of_resetAssert hturns, csrValue_of_csr_reset rfl, rfl, busy_of_csr_reset rfl,
      done_of_csr_reset rfl, irq_of_csr_reset rfl, rfl, congrArg List.tail hturns,
      fun hidle a _ => hkept a (not_holds_of_idle hidle a), hkept⟩
  case release => rw [step_of_resetRelease hturns, beginStep_of_turns_cons hturns]; rfl

end Sys2Proof.Machine
